-- ==== Sys2Proof/Word.lean ====
section
/-! DEFINITION. The word types of the block: bytes, nibbles, the host's request word and the words the LCD takes. -/

namespace Sys2Proof

/-- An 8-bit unsigned value: a shadow register, an operand, a byte sent to the LCD (00_scope R8, R9). -/
abbrev Byte := BitVec 8

/-- A 4-bit half of a byte, sent on the four data lines (00_scope R13). -/
abbrev Nibble := BitVec 4

/-- The 80-bit request word `req_data` (30_encoding R300). -/
abbrev Request := BitVec 80

/-- A 9-bit LCD word: register-select in bit 8, the byte in bits 7..0 (30_encoding R320). -/
abbrev LcdWord := BitVec 9

/-- A 5-bit lone nibble: register-select in bit 4, the nibble in bits 3..0 (30_encoding R324). -/
abbrev LoneNibble := BitVec 5

end Sys2Proof
end

