-- ==== Sys2Proof/Syntax.lean ====
section
/-! DEFINITION. The instructions: one constructor per row of spec/opcode_table.json. -/

namespace Sys2Proof

/-- The character size operand of BEGIN: 0 is 5x8, 1 is 5x10 (30_encoding R302). -/
inductive CharSize where
  | dots5x8
  | dots5x10
  deriving DecidableEq, Repr

/-- Twenty host requests (30_encoding R301), nine LCD words (30_encoding R320) and the two lone
nibbles of BEGIN (41_initialization R506). Operands are the fields of the encoding, unmasked. -/
inductive Instr where
  /-- BEGIN, 41_initialization R510. -/
  | begin (cols rows : Byte) (size : CharSize)
  /-- CLEAR, 42_register_ops R600. -/
  | clear
  /-- HOME, 42_register_ops R601. -/
  | home
  /-- DISPLAY_ON, 42_register_ops R610. -/
  | display
  /-- DISPLAY_OFF, 42_register_ops R611. -/
  | noDisplay
  /-- CURSOR_ON, 42_register_ops R612. -/
  | cursor
  /-- CURSOR_OFF, 42_register_ops R613. -/
  | noCursor
  /-- BLINK_ON, 42_register_ops R614. -/
  | blink
  /-- BLINK_OFF, 42_register_ops R615. -/
  | noBlink
  /-- LEFT_TO_RIGHT, 42_register_ops R620. -/
  | leftToRight
  /-- RIGHT_TO_LEFT, 42_register_ops R621. -/
  | rightToLeft
  /-- AUTOSCROLL_ON, 42_register_ops R622. -/
  | autoscroll
  /-- AUTOSCROLL_OFF, 42_register_ops R623. -/
  | noAutoscroll
  /-- SCROLL_LEFT, 42_register_ops R630. -/
  | scrollDisplayLeft
  /-- SCROLL_RIGHT, 42_register_ops R631. -/
  | scrollDisplayRight
  /-- SET_ROW_OFFSETS, 43_addressing_data R710. -/
  | setRowOffsets (o0 o1 o2 o3 : Byte)
  /-- SET_CURSOR, 43_addressing_data R720. -/
  | setCursor (col row : Byte)
  /-- CREATE_CHAR, 43_addressing_data R730; a well-formed one has eight rows. -/
  | createChar (slot : Byte) (bitmap : List Byte)
  /-- WRITE, 43_addressing_data R740. -/
  | write (byte : Byte)
  /-- COMMAND, 43_addressing_data R750. -/
  | command (byte : Byte)
  /-- Format CLR. -/
  | lcdClearDisplay
  /-- Format HOME; `x` is the don't-care bit 0. -/
  | lcdReturnHome (x : BitVec 1)
  /-- Format ENTRY: text direction and shift. -/
  | lcdEntryModeSet (id sh : Bool)
  /-- Format DISP: display on, cursor visible, cursor blink. -/
  | lcdDisplayControl (d c b : Bool)
  /-- Format SHIFT: display (or cursor), right (or left), don't-care bits 1:0. -/
  | lcdCursorDisplayShift (sc rl : Bool) (x : BitVec 2)
  /-- Format FUNC: bus width, line count, character size, don't-care bits 1:0. -/
  | lcdFunctionSet (dl n f : Bool) (x : BitVec 2)
  /-- Format CGRAM. -/
  | lcdSetCgramAddr (addr : BitVec 6)
  /-- Format DDRAM. -/
  | lcdSetDdramAddr (addr : BitVec 7)
  /-- Format DATA. -/
  | lcdWriteData (byte : Byte)
  /-- The lone nibble 0x3 (format NIB). -/
  | lcdNibble8BitFunctionSet
  /-- The lone nibble 0x2 (format NIB). -/
  | lcdNibble4BitFunctionSet
  deriving DecidableEq, Repr

end Sys2Proof
end

