-- ==== Sys2Proof/WellFormed.lean ====
section
/-! DEFINITION. Which instructions are well formed: the one bound that their types do not carry. -/

namespace Sys2Proof

/-- A CREATE_CHAR carries exactly `bitmap[0..7]` (43_addressing_data R730); every operand of every
other instruction has the width its encoding gives it, so nothing is left to check. -/
def WellFormed (i : Instr) : Bool :=
  match i with
  | .createChar _ bitmap => bitmap.length == 8
  | .begin _ _ _ | .clear | .home | .display | .noDisplay | .cursor | .noCursor | .blink | .noBlink
  | .leftToRight | .rightToLeft | .autoscroll | .noAutoscroll
  | .scrollDisplayLeft | .scrollDisplayRight | .setRowOffsets _ _ _ _ | .setCursor _ _
  | .write _ | .command _ => true
  | .lcdClearDisplay | .lcdReturnHome _ | .lcdEntryModeSet _ _ | .lcdDisplayControl _ _ _
  | .lcdCursorDisplayShift _ _ _ | .lcdFunctionSet _ _ _ _ | .lcdSetCgramAddr _
  | .lcdSetDdramAddr _ | .lcdWriteData _
  | .lcdNibble8BitFunctionSet | .lcdNibble4BitFunctionSet => true

end Sys2Proof
end

