-- ==== Sys2Proof/Decode.lean ====
section
/-! DEFINITION. Decoding of the three encodings the table holds (80-bit requests, 9-bit LCD words,
5-bit lone nibbles), total on any bits and rejecting by name, and the encoder beside it. -/

namespace Sys2Proof

/-- Why a word is no instruction. -/
inductive DecodeError where
  /-- Opcodes 0x14..0xFF are unassigned (30_encoding R304). -/
  | illegalRequest (op : Byte)
  /-- The byte 0x00 with RS = 0 has no format (30_encoding R320). -/
  | noLcdFormat (w : LcdWord)
  /-- Only 0x3 and 0x2 with RS = 0 are lone nibbles (30_encoding R324). -/
  | notLoneNibble (w : LoneNibble)
  /-- A request is ten bytes (30_encoding R300). -/
  | notTenBytes (n : Nat)
  deriving DecidableEq, Repr

/-! ## The request word -/

/-- Byte `k` of the request word is `req_data[8k+7:8k]` (20_memory R223). -/
def Request.byte (k : Nat) (w : Request) : Byte := w.extractLsb' (8 * k) 8

/-- The request word of a list of bytes, byte 0 first; bytes that the list does not give are 0
(30_encoding R300, R330). -/
def Request.ofBytes : List Byte → Request
  | [] => 0
  | b :: bs => Request.ofBytes bs <<< 8 ||| b.setWidth 80

/-- `a2[0]`: 0 is 5x8, 1 is 5x10 (30_encoding R302). -/
def CharSize.ofBit (b : Bool) : CharSize := if b then .dots5x10 else .dots5x8

/-- The byte a2 of a BEGIN with its ignored bits 0 (30_encoding R302, R330). -/
def CharSize.toByte : CharSize → Byte
  | .dots5x8 => 0x00
  | .dots5x10 => 0x01

/-- The request decoder: the opcode map on byte 0 alone (30_encoding R301), operands as R302 says,
argument bytes an opcode does not use ignored (R303), unassigned opcodes rejected (R304). -/
def decode (w : Request) : Except DecodeError Instr :=
  let a (k : Nat) : Byte := Request.byte (k + 1) w
  match (Request.byte 0 w).toNat with
  | 0x00 => .ok (.begin (a 0) (a 1) (CharSize.ofBit ((a 2).getLsbD 0)))
  | 0x01 => .ok .clear
  | 0x02 => .ok .home
  | 0x03 => .ok .display
  | 0x04 => .ok .noDisplay
  | 0x05 => .ok .cursor
  | 0x06 => .ok .noCursor
  | 0x07 => .ok .blink
  | 0x08 => .ok .noBlink
  | 0x09 => .ok .leftToRight
  | 0x0A => .ok .rightToLeft
  | 0x0B => .ok .autoscroll
  | 0x0C => .ok .noAutoscroll
  | 0x0D => .ok .scrollDisplayLeft
  | 0x0E => .ok .scrollDisplayRight
  | 0x0F => .ok (.setRowOffsets (a 0) (a 1) (a 2) (a 3))
  | 0x10 => .ok (.setCursor (a 0) (a 1))
  | 0x11 => .ok (.createChar (a 0) [a 1, a 2, a 3, a 4, a 5, a 6, a 7, a 8])
  | 0x12 => .ok (.write (a 0))
  | 0x13 => .ok (.command (a 0))
  | _ => .error (.illegalRequest (Request.byte 0 w))

/-- The request decoder on bytes in the order of the port, byte 0 first (20_memory R223). -/
def decodeBytes (bs : List Byte) : Except DecodeError Instr :=
  if bs.length = 10 then decode (Request.ofBytes bs) else .error (.notTenBytes bs.length)

/-! ## The LCD word -/

/-- The byte of an LCD word. -/
def LcdWord.byte (w : LcdWord) : Byte := w.extractLsb' 0 8

/-- An LCD word from its register-select level and its byte: `{RS, B}` (30_encoding R320). -/
def LcdWord.of (rs : Bool) (b : Byte) : LcdWord := BitVec.ofBool rs ++ b

/-- The LCD word decoder: RS = 1 is data; with RS = 0 the position of the highest set bit of the
byte tells the formats apart (30_encoding R320). -/
def decodeLcd (w : LcdWord) : Except DecodeError Instr :=
  if w.getLsbD 8 then .ok (.lcdWriteData w.byte)
  else if w.getLsbD 7 then .ok (.lcdSetDdramAddr (w.extractLsb' 0 7))
  else if w.getLsbD 6 then .ok (.lcdSetCgramAddr (w.extractLsb' 0 6))
  else if w.getLsbD 5 then
    .ok (.lcdFunctionSet (w.getLsbD 4) (w.getLsbD 3) (w.getLsbD 2) (w.extractLsb' 0 2))
  else if w.getLsbD 4 then
    .ok (.lcdCursorDisplayShift (w.getLsbD 3) (w.getLsbD 2) (w.extractLsb' 0 2))
  else if w.getLsbD 3 then
    .ok (.lcdDisplayControl (w.getLsbD 2) (w.getLsbD 1) (w.getLsbD 0))
  else if w.getLsbD 2 then .ok (.lcdEntryModeSet (w.getLsbD 1) (w.getLsbD 0))
  else if w.getLsbD 1 then .ok (.lcdReturnHome (w.extractLsb' 0 1))
  else if w.getLsbD 0 then .ok .lcdClearDisplay
  else .error (.noLcdFormat w)

/-! ## The lone nibble -/

/-- A lone nibble from its register-select level and its nibble: `{RS, N}` (30_encoding R324). -/
def LoneNibble.of (rs : Bool) (n : Nibble) : LoneNibble := BitVec.ofBool rs ++ n

/-- The lone nibble decoder: the two nibbles of BEGIN, both with RS = 0 (30_encoding R324,
41_initialization R506). -/
def decodeNibble (w : LoneNibble) : Except DecodeError Instr :=
  if w = 0x03#5 then .ok .lcdNibble8BitFunctionSet
  else if w = 0x02#5 then .ok .lcdNibble4BitFunctionSet
  else .error (.notLoneNibble w)

/-! ## The encoder -/

/-- A word of one of the three encodings. -/
inductive Encoded where
  | request (w : Request)
  | lcdWord (w : LcdWord)
  | loneNibble (w : LoneNibble)
  deriving DecidableEq, Repr

/-- The decoder of whichever encoding a word is in. -/
def decodeEncoded : Encoded → Except DecodeError Instr
  | .request w => decode w
  | .lcdWord w => decodeLcd w
  | .loneNibble w => decodeNibble w

/-- The word of an instruction, every unused bit 0: requests by 30_encoding R300, R301 and R330,
LCD words by the table of R320, lone nibbles by R324. -/
def encode (i : Instr) : Encoded :=
  match i with
  | .begin cols rows size => .request (Request.ofBytes [0x00, cols, rows, size.toByte])
  | .clear => .request (Request.ofBytes [0x01])
  | .home => .request (Request.ofBytes [0x02])
  | .display => .request (Request.ofBytes [0x03])
  | .noDisplay => .request (Request.ofBytes [0x04])
  | .cursor => .request (Request.ofBytes [0x05])
  | .noCursor => .request (Request.ofBytes [0x06])
  | .blink => .request (Request.ofBytes [0x07])
  | .noBlink => .request (Request.ofBytes [0x08])
  | .leftToRight => .request (Request.ofBytes [0x09])
  | .rightToLeft => .request (Request.ofBytes [0x0A])
  | .autoscroll => .request (Request.ofBytes [0x0B])
  | .noAutoscroll => .request (Request.ofBytes [0x0C])
  | .scrollDisplayLeft => .request (Request.ofBytes [0x0D])
  | .scrollDisplayRight => .request (Request.ofBytes [0x0E])
  | .setRowOffsets o0 o1 o2 o3 => .request (Request.ofBytes [0x0F, o0, o1, o2, o3])
  | .setCursor col row => .request (Request.ofBytes [0x10, col, row])
  | .createChar slot bitmap => .request (Request.ofBytes (0x11 :: slot :: bitmap))
  | .write byte => .request (Request.ofBytes [0x12, byte])
  | .command byte => .request (Request.ofBytes [0x13, byte])
  | .lcdClearDisplay => .lcdWord 0x001
  | .lcdReturnHome x => .lcdWord (0x01#8 ++ x)
  | .lcdEntryModeSet id sh => .lcdWord (0x01#7 ++ BitVec.ofBool id ++ BitVec.ofBool sh)
  | .lcdDisplayControl d c b =>
    .lcdWord (0x01#6 ++ BitVec.ofBool d ++ BitVec.ofBool c ++ BitVec.ofBool b)
  | .lcdCursorDisplayShift sc rl x =>
    .lcdWord (0x01#5 ++ BitVec.ofBool sc ++ BitVec.ofBool rl ++ x)
  | .lcdFunctionSet dl n f x =>
    .lcdWord (0x01#4 ++ BitVec.ofBool dl ++ BitVec.ofBool n ++ BitVec.ofBool f ++ x)
  | .lcdSetCgramAddr addr => .lcdWord (0x01#3 ++ addr)
  | .lcdSetDdramAddr addr => .lcdWord (0x01#2 ++ addr)
  | .lcdWriteData byte => .lcdWord (0x01#1 ++ byte)
  | .lcdNibble8BitFunctionSet => .loneNibble 0x03
  | .lcdNibble4BitFunctionSet => .loneNibble 0x02

/-! ## The opcode table's numbering -/

/-- The three widths at which the table gives its rows: 8 bits for a request (its opcode byte, the
argument bytes above it 0), 9 bits for an LCD word (16 in whole bytes), 5 bits for a lone nibble.
A lone nibble in whole bytes is 8 bits, which is a request: the two rows 0x02 and 0x03 of format NIB
are then read as the requests of the same bits (log entry 20). -/
def encodedOfTableWord (nbits w : Nat) : Encoded :=
  match nbits with
  | 5 => .loneNibble (BitVec.ofNat 5 w)
  | 9 => .lcdWord (BitVec.ofNat 9 w)
  | 16 => .lcdWord (BitVec.ofNat 9 w)
  | n => .request ((BitVec.ofNat 80 w) &&& (BitVec.ofNat 80 (2 ^ min n 80 - 1)))

/-- The instruction the decoder reads from the bits `w` of a row of spec/opcode_table.json. -/
def decodeTableWord (nbits w : Nat) : Option Instr :=
  match decodeEncoded (encodedOfTableWord nbits w) with
  | .ok i => some i
  | .error _ => none

end Sys2Proof
end

