-- ==== Sys2Proof/Config.lean ====
section
/-! DEFINITION. What an instance fixes (00_scope R8), the types of its environment, and the free
values the spec leaves open. -/

namespace Sys2Proof

/-- The expander line index of each of the six lines (00_scope R8, 10_state R101). -/
structure LineAssignment where
  rs : Nat
  en : Nat
  d0 : Nat
  d1 : Nat
  d2 : Nat
  d3 : Nat
  deriving DecidableEq, Repr

/-- The parameters of an instance; no step changes them (00_scope R8, 10_state R130). -/
structure Config where
  /-- LA, 10_state R101. -/
  la : LineAssignment
  /-- CYC_PER_US, left OPEN by 00_scope R8. -/
  cycPerUs : Nat
  /-- FONT10_ONE_LINE_ONLY, 00_scope R8. -/
  font10OneLineOnly : Bool
  deriving DecidableEq, Repr

/-- The LCD's bus phase (10_state R123, 41_initialization R513): 8-bit mode, 4-bit mode at a nibble
boundary, or 4-bit mode with the high nibble taken and the low one to come. -/
inductive BusPhase where
  | eightBit
  | fourBit
  | fourBitLow (high : Nibble)
  deriving DecidableEq, Repr, Inhabited

/-- Which of its memories the LCD's address counter selects (70_reset_and_hazards R932). -/
inductive AddrSpace where
  | ddram
  | cgram
  deriving DecidableEq, Repr, Inhabited

/-- One transfer the LCD has taken: a byte (30_encoding R320) or a lone nibble (R324), with the
register-select level. -/
inductive LcdTransfer where
  | byte (rs : Bool) (b : Byte)
  | nibble (rs : Bool) (n : Nibble)
  deriving DecidableEq, Repr

/-- What the spec gives the LCD (10_state R103, R104, R123): its bus phase, the three on-device
registers that the shadows copy, the memory its address counter selects, and the transfers it took.
Its memories and its display shift are out of scope (00_scope R7). -/
structure Lcd where
  phase : BusPhase
  /-- On-device function register, fields of 10_state R105. -/
  fn : Byte
  /-- On-device display-control register, fields of 10_state R106. -/
  dc : Byte
  /-- On-device entry-mode register, fields of 10_state R107. -/
  em : Byte
  space : AddrSpace
  addr : BitVec 7
  /-- Oldest first. -/
  taken : List LcdTransfer
  deriving DecidableEq, Repr, Inhabited

namespace Config

/-- FREE VALUE (log entry 12): the LCD's address counter after an instruction whose effect on it the
spec leaves to the LCD (42_register_ops R600, 20_memory R204, 30_encoding R325). -/
opaque freeAddr : Nat → BitVec 7

/-- FREE VALUE (log entry 11): the four bus lines DB3..DB0, which no rule wires, as the LCD reads
them in 8-bit mode. -/
opaque freeNibble : Nat → Nibble

/-- FREE VALUE (log entry 15): whether the expander performed an operation that reset cut off
(70_reset_and_hazards R901). -/
opaque freeCut : Nat → Bool

/-- FREE VALUE (log entry 14): all that the LCD holds after a word that has no format
(30_encoding R320, R325). -/
opaque freeLcd : Nat → Lcd

end Config

end Sys2Proof
end

