-- ==== Sys2Proof/Machine/State.lean ====
section
/-! DEFINITION. The state of the block and of its environment as plain data (10_state), the reasons a
step can stop, and the state after reset (10_state R129). -/

namespace Sys2Proof.Machine

/-- The two forms of `setLevel`: stage the level only, or commit all pending levels (20_memory R210). -/
inductive Latch where
  | defer
  | now
  deriving DecidableEq, Repr

/-- One expander operation `ExpSet(line, level, latch)` (00_scope R10). -/
structure ExpOp where
  line : Nat
  level : Bool
  latch : Latch
  deriving DecidableEq, Repr

/-- A micro-operation of the queue, or its final `Done(count)` marker (10_state R117). -/
inductive MicroOp where
  | expSet (op : ExpOp)
  | wait (us : BitVec 16)
  | done (count : Byte)
  deriving DecidableEq, Repr

/-- The codes of `FAULT` (60_exceptions R800). -/
inductive FaultCode where
  | none
  | illegalRequest
  | notConfigured
  | rowOutOfTable
  deriving DecidableEq, Repr

/-- The events of the trace (00_scope R11). -/
inductive Event where
  | accept (w : Request)
  | expSet (op : ExpOp)
  | wait (us : BitVec 16)
  | done (count : Byte)
  | fault (c : FaultCode)
  deriving DecidableEq, Repr

/-- The row-offset table `ROFF[0..3]`, always written all four at once (10_state R111). -/
structure RowOffsets where
  o0 : Byte
  o1 : Byte
  o2 : Byte
  o3 : Byte
  deriving DecidableEq, Repr

/-- The host's request port (10_state R125): what it drives now, and the requests it presents
afterwards, each held until it is accepted (40_sequencer R427; log entry 2). -/
structure HostPort where
  /-- `req_valid`. -/
  valid : Bool
  /-- `req_data`. -/
  data : Request
  later : List Request
  deriving DecidableEq, Repr

/-- The line expander (20_memory R210): bit `j` is the level of line `j`; and the levels of `exp_ack`
while an operation is presented, one a cycle, with the level after them (10_state R127; log entry 4). -/
structure Expander where
  staged : BitVec 8
  phys : BitVec 8
  acks : List Bool
  ackRest : Bool
  deriving DecidableEq, Repr

/-- The whole machine: the block's dynamic state and its configuration (10_state R130), its input
ports, and the environment that the spec's rules speak of (10_state R100, R123). -/
structure State where
  /-- The parameters of the instance (00_scope R8). -/
  cfg : Config
  /-- SHV (10_state R112). -/
  shv : Bool
  /-- FN; `none` is the spec's own "unwritten" (10_state R105, R115). -/
  fn : Option Byte
  /-- DC (10_state R106, R115). -/
  dc : Option Byte
  /-- EM (10_state R107, R115). -/
  em : Option Byte
  /-- RC (10_state R110, R115). -/
  rc : Option Byte
  /-- ROFF[0..3] (10_state R111, R115). -/
  roff : Option RowOffsets
  /-- BUSY (10_state R116). -/
  busy : Bool
  /-- UQ (10_state R117). -/
  uq : List MicroOp
  /-- TMR (10_state R118). -/
  tmr : BitVec 16
  /-- PRE (10_state R118). -/
  pre : Nat
  /-- EXPQ (10_state R119). -/
  expq : Option ExpOp
  /-- FAULT (10_state R120). -/
  fault : FaultCode
  /-- FINFO (10_state R120). -/
  finfo : Request
  /-- The input `rst` at the next rising edge of the clock (10_state R124). -/
  rst : Bool
  /-- The host's port (10_state R125). -/
  host : HostPort
  /-- What the other clients of a shared expander do, one entry a cycle (20_memory R241). -/
  clients : List (Option ExpOp)
  /-- The expander (20_memory R210). -/
  expander : Expander
  /-- The LCD (10_state R123). -/
  lcd : Lcd
  /-- The observable trace, oldest first (00_scope R10, R11). -/
  trace : List Event
  /-- The MODEL's own counter that numbers the free values (log entry 12). -/
  fresh : Nat
  deriving DecidableEq, Repr

/-- Why a step stops the machine. The faults of the spec are not here: they are states, entered by a
next state (60_exceptions R810). -/
inductive Fault where
  /-- Raised by the cycle of a busy block to which none of 40_sequencer R420 to R425 applies: its
  queue is empty, or the outstanding expander operation's micro-operation is not its head. Safe: the
  spec gives such a state no step, and no run reaches one (Safety.lean, log entry 18). -/
  | noRule
  deriving DecidableEq, Repr

/-- Why the model has no step. -/
inductive Refusal where
  /-- Raised by exec's arm of an instruction that has no meaning yet. Safe: nothing is claimed of it. -/
  | notModelled (mnemonic : String)
  /-- Raised by every step of an instance whose LineAssignment or clock ratio is invalid: it "is not
  an instance" (60_exceptions R806). Safe: nothing is claimed of a mis-wired block. -/
  | invalidInstance
  /-- Raised when another client of the expander writes one of the block's six lines, which the
  environment must never do (70_reset_and_hazards R934). Safe: the model has no such client. -/
  | foreignLineWrite
  deriving DecidableEq, Repr

/-- The instance that reset names: the lines of the spec's test vectors, one clock cycle a
microsecond, and the default of FONT10_ONE_LINE_ONLY (log entry 16). -/
def resetConfig : Config where
  la := ⟨0, 1, 4, 5, 6, 7⟩
  cycPerUs := 1
  font10OneLineOnly := true

/-- The LCD at power-on, its state unknown to the spec: the family's power-on values (log entry 9). -/
def resetLcd : Lcd where
  phase := .eightBit
  fn := 0x10
  dc := 0x00
  em := 0x02
  space := .ddram
  addr := 0
  taken := []

/-- The machine right after reset: the block as in 10_state R129; FINFO, which R129 leaves
unspecified, 0 (log entry 7); a quiet environment (log entries 2 to 5, 8 to 10, 12). -/
def State.reset : State where
  cfg := resetConfig
  shv := false
  fn := none
  dc := none
  em := none
  rc := none
  roff := none
  busy := false
  uq := []
  tmr := 0
  pre := 0
  expq := none
  fault := .none
  finfo := 0
  rst := false
  host := ⟨false, 0, []⟩
  clients := []
  expander := ⟨0, 0, [], true⟩
  lcd := resetLcd
  trace := []
  fresh := 0

end Sys2Proof.Machine
end

