-- ==== Sys2Proof/Machine/Operands.lean ====
section
/-! DEFINITION. The bytes the block assembles from its operands and shadows (30_encoding R322), and the
operand arithmetic of SET_CURSOR and CREATE_CHAR (43_addressing_data R720, R730). -/

namespace Sys2Proof.Machine

/-! ## Instruction codes (30_encoding R320) -/

/-- CLEAR_DISPLAY. -/
def codeClear : Byte := 0x01
/-- Return home. -/
def codeHome : Byte := 0x02
/-- ENTRY_MODE_SET. -/
def codeEntry : Byte := 0x04
/-- DISPLAY_CONTROL. -/
def codeDisplay : Byte := 0x08
/-- The cursor or display shift. -/
def codeShift : Byte := 0x10
/-- SET_CGRAM_ADDR. -/
def codeCgram : Byte := 0x40
/-- SET_DDRAM_ADDR. -/
def codeDdram : Byte := 0x80

/-! ## Assembled bytes (30_encoding R322, R323) -/

/-- `0x10 | 0x08 | 0x00`, SCROLL_LEFT's byte. -/
def byteScrollLeft : Byte := codeShift ||| 0x08 ||| 0x00

/-- `0x10 | 0x08 | 0x04`, SCROLL_RIGHT's byte. -/
def byteScrollRight : Byte := codeShift ||| 0x08 ||| 0x04

/-- `0x40 | ((slot & 0x7) << 3)`, CREATE_CHAR's address byte. -/
def byteCgram (slot : Byte) : Byte := codeCgram ||| ((slot &&& 0x07) <<< 3)

/-- `0x80 | addr`, SET_CURSOR's byte. -/
def byteDdram (addr : BitVec 7) : Byte := codeDdram ||| addr.setWidth 8

/-! ## Cursor arithmetic (43_addressing_data R720) -/

/-- `row mod RC`, for RC other than 0. -/
def wrappedRow (row rc : Byte) : Nat := row.toNat % rc.toNat

/-- `ROFF[r]`, for r up to 3; the table has no entry past it. -/
def RowOffsets.entry (t : RowOffsets) : Nat → Option Byte
  | 0 => some t.o0
  | 1 => some t.o1
  | 2 => some t.o2
  | 3 => some t.o3
  | _ => none

/-- `(zext(col) + zext(offset)) mod 128`, the 7-bit DDRAM address. -/
def ddramAddress (col offset : Byte) : BitVec 7 := BitVec.ofNat 7 ((col.toNat + offset.toNat) % 128)

end Sys2Proof.Machine
end

