-- ==== Sys2Proof/Machine/Sequence.lean ====
section
/-! DEFINITION. The parameters' fixed values and the primitives of the transmission sequencer as
micro-operation lists (40_sequencer sections 1 and 2), and the initialization list with its nine states
(41_initialization section 1). -/

namespace Sys2Proof.Machine

/-! ## Timing constants, in microseconds (00_scope R8) -/

/-- T_EN_LOW. -/
def tEnLow : BitVec 16 := 1
/-- T_EN_HIGH. -/
def tEnHigh : BitVec 16 := 1
/-- T_CMD. -/
def tCmd : BitVec 16 := 50
/-- T_POWER. -/
def tPower : BitVec 16 := 50000
/-- T_COAX12. -/
def tCoax12 : BitVec 16 := 4500
/-- T_COAX3. -/
def tCoax3 : BitVec 16 := 150
/-- T_LONG. -/
def tLong : BitVec 16 := 2000

/-! ## Line writes (00_scope R12, 40_sequencer R401) -/

/-- `SET(l, v)`: latch now. -/
def setLine (line : Nat) (level : Bool) : MicroOp := .expSet ⟨line, level, .now⟩

/-- `STAGE(l, v)`: deferred latch. -/
def stageLine (line : Nat) (level : Bool) : MicroOp := .expSet ⟨line, level, .defer⟩

/-! ## Primitives -/

/-- PULSE, 40_sequencer R400. -/
def pulse (la : LineAssignment) : List MicroOp :=
  [setLine la.en false, .wait tEnLow, setLine la.en true, .wait tEnHigh,
   setLine la.en false, .wait tCmd]

/-- NIB(v), 40_sequencer R403: the three deferred data lines, the latching one, the pulse. -/
def nib (la : LineAssignment) (v : Nibble) : List MicroOp :=
  [stageLine la.d0 (v.getLsbD 0), stageLine la.d1 (v.getLsbD 1), stageLine la.d2 (v.getLsbD 2),
   setLine la.d3 (v.getLsbD 3)] ++ pulse la

/-- `B >> 4`, the high nibble (20_memory R220). -/
def highNibble (b : Byte) : Nibble := b.extractLsb' 4 4

/-- `B & 0xF`, the low nibble (20_memory R220). -/
def lowNibble (b : Byte) : Nibble := b.extractLsb' 0 4

/-- SEND(B, rs), 40_sequencer R402: high nibble first. -/
def send (la : LineAssignment) (b : Byte) (rs : Bool) : List MicroOp :=
  [setLine la.rs rs] ++ nib la (highNibble b) ++ nib la (lowNibble b)

/-- CMD(B), 40_sequencer R404. -/
def cmd (la : LineAssignment) (b : Byte) : List MicroOp := send la b false

/-- DATA(B), 40_sequencer R404. -/
def data (la : LineAssignment) (b : Byte) : List MicroOp := send la b true

/-! ## The initialization sequence -/

/-- L_POWER, 41_initialization R505. -/
def initPower (la : LineAssignment) : List MicroOp :=
  [.wait tPower, setLine la.rs false, setLine la.en false]

/-- L_COAX1 and L_COAX2, 41_initialization R506. -/
def initCoax12 (la : LineAssignment) : List MicroOp := nib la 0x3 ++ [.wait tCoax12]

/-- L_COAX3, 41_initialization R506. -/
def initCoax3 (la : LineAssignment) : List MicroOp := nib la 0x3 ++ [.wait tCoax3]

/-- L_4BIT, 41_initialization R506. -/
def init4Bit (la : LineAssignment) : List MicroOp := nib la 0x2

/-- L_FUNC, 41_initialization R507. -/
def initFunc (la : LineAssignment) (fn : Byte) : List MicroOp := cmd la (0x20 ||| fn)

/-- L_DISP, 41_initialization R507. -/
def initDisp (la : LineAssignment) (dc : Byte) : List MicroOp := cmd la (0x08 ||| dc)

/-- L_CLEAR, 41_initialization R507. -/
def initClear (la : LineAssignment) : List MicroOp := cmd la 0x01 ++ [.wait tLong]

/-- L_ENTRY, 41_initialization R507. -/
def initEntry (la : LineAssignment) (em : Byte) : List MicroOp := cmd la (0x04 ||| em)

/-- L_BEGIN, 41_initialization R508. -/
def beginList (la : LineAssignment) (fn dc em : Byte) : List MicroOp :=
  initPower la ++ initCoax12 la ++ initCoax12 la ++ initCoax3 la ++ init4Bit la
    ++ initFunc la fn ++ initDisp la dc ++ initClear la ++ initEntry la em

/-- The nine states of the initialization FSM (41_initialization R501). -/
inductive InitState where
  | power
  | coax1
  | coax2
  | coax3
  | fourBit
  | func
  | disp
  | clear
  | entry
  deriving DecidableEq, Repr

/-- The slice of L_BEGIN that each state is (41_initialization R505 to R507). -/
def initSlice (la : LineAssignment) (fn dc em : Byte) : InitState → List MicroOp
  | .power => initPower la
  | .coax1 => initCoax12 la
  | .coax2 => initCoax12 la
  | .coax3 => initCoax3 la
  | .fourBit => init4Bit la
  | .func => initFunc la fn
  | .disp => initDisp la dc
  | .clear => initClear la
  | .entry => initEntry la em

/-- The FSM state of a BEGIN in progress, read off the number of micro-operations already performed
(the positions of 41_initialization R501); `none` once only the `Done` marker is left. -/
def initStateAt (performed : Nat) : Option InitState :=
  if performed ≤ 2 then some .power
  else if performed ≤ 13 then some .coax1
  else if performed ≤ 24 then some .coax2
  else if performed ≤ 35 then some .coax3
  else if performed ≤ 45 then some .fourBit
  else if performed ≤ 66 then some .func
  else if performed ≤ 87 then some .disp
  else if performed ≤ 109 then some .clear
  else if performed ≤ 130 then some .entry
  else none

/-! ## Counting a list (40_sequencer R405, 70_reset_and_hazards R950) -/

/-- How many of the micro-operations are `ExpSet`. -/
def expSetCount : List MicroOp → Nat
  | [] => 0
  | .expSet _ :: ops => expSetCount ops + 1
  | .wait _ :: ops => expSetCount ops
  | .done _ :: ops => expSetCount ops

/-- How many of the micro-operations are `Wait`. -/
def waitCount : List MicroOp → Nat
  | [] => 0
  | .expSet _ :: ops => waitCount ops
  | .wait _ :: ops => waitCount ops + 1
  | .done _ :: ops => waitCount ops

/-- The sum of the waits, in microseconds. -/
def waitMicros : List MicroOp → Nat
  | [] => 0
  | .expSet _ :: ops => waitMicros ops
  | .wait us :: ops => waitMicros ops + us.toNat
  | .done _ :: ops => waitMicros ops

/-- The cycles a list takes with an expander that acknowledges on the first cycle an operation is
presented (`k = 1` in 70_reset_and_hazards R950). -/
def cyclesOf (cycPerUs : Nat) : List MicroOp → Nat
  | [] => 0
  | .expSet _ :: ops => cyclesOf cycPerUs ops + 2
  | .wait us :: ops => cyclesOf cycPerUs ops + 1 + us.toNat * cycPerUs
  | .done _ :: ops => cyclesOf cycPerUs ops + 1

/-- The events a list emits when it is performed (40_sequencer R422, R423, R424). -/
def eventsOf : List MicroOp → List Event
  | [] => []
  | .expSet op :: ops => .expSet op :: eventsOf ops
  | .wait us :: ops => .wait us :: eventsOf ops
  | .done c :: ops => .done c :: eventsOf ops

end Sys2Proof.Machine
end

