-- ==== Sys2Proof/Machine/Ops.lean ====
section
/-! DEFINITION. The named operations over the state: the instance check, the block's registers, taking
a fault, accepting a request, the timer, the expander, the LCD's taking of a word, and reset. -/

namespace Sys2Proof

/-! ## The instance check -/

/-- The six line indices in the order of 10_state R101. -/
def LineAssignment.lines (la : LineAssignment) : List Nat :=
  [la.rs, la.en, la.d0, la.d1, la.d2, la.d3]

/-- Every index in 0..7 and the six distinct (10_state R101, 60_exceptions R806). -/
def LineAssignment.valid (la : LineAssignment) : Bool :=
  la.lines.all (fun l => decide (l < 8)) && decide la.lines.Nodup

/-- A valid LineAssignment and `CYC_PER_US >= 1` (00_scope R8). -/
def Config.valid (cfg : Config) : Bool := cfg.la.valid && decide (1 ≤ cfg.cycPerUs)

end Sys2Proof

namespace Sys2Proof.Machine

/-- The outcome of an operation. -/
abbrev Outcome := Host.Outcome State Fault Refusal

/-- `f` applied to the next state; a fault or a refusal stays. -/
def mapNext (f : State → State) : Outcome → Outcome
  | .next s => .next (f s)
  | .fault r => .fault r
  | .refused r => .refused r

/-- `f` run on the next state; a fault or a refusal stays. -/
def andThen (o : Outcome) (f : State → Outcome) : Outcome :=
  match o with
  | .next s => f s
  | .fault r => .fault r
  | .refused r => .refused r

/-! ## The block's registers -/

/-- `emit(ev)`: append an event to the trace (00_scope R10). -/
def State.emit (e : Event) (s : State) : State := { s with trace := s.trace ++ [e] }

/-- `DC <- v`. -/
def State.setDc (v : Byte) (s : State) : State := { s with dc := some v }

/-- `EM <- v`. -/
def State.setEm (v : Byte) (s : State) : State := { s with em := some v }

/-- `ROFF[0..3] <- t`. -/
def State.setRoff (t : RowOffsets) (s : State) : State := { s with roff := some t }

/-- The shadow writes of BEGIN, all at once (41_initialization R510). -/
def State.configure (fn dc em rc : Byte) (t : RowOffsets) (s : State) : State :=
  { s with fn := some fn, dc := some dc, em := some em, rc := some rc, roff := some t, shv := true }

/-- `UQ <- L ++ [Done(count)]; BUSY <- 1` (40_sequencer R420). -/
def State.load (ops : List MicroOp) (count : Byte) (s : State) : State :=
  { s with uq := ops ++ [.done count], busy := true }

/-- `FAULT <- c; FINFO <- req_data` (60_exceptions R810). -/
def State.enterFault (c : FaultCode) (s : State) : State :=
  { s with fault := c, finfo := s.host.data }

/-- `req_ready`: 1 exactly when BUSY = 0 and FAULT = 0 (10_state R125). -/
def State.ready (s : State) : Bool := !s.busy && decide (s.fault = .none)

/-! ## Accepting and faulting -/

/-- Fault entry (60_exceptions R810): nothing but FAULT, FINFO and the event. -/
def raiseFault (c : FaultCode) (s : State) : Outcome :=
  .next ((s.enterFault c).emit (.fault c))

/-- Acceptance of a request whose shadow writes are made in `s` (40_sequencer R420, R421): the queue is
loaded, BUSY set, and Accept emitted with the word on the port. -/
def accept (ops : List MicroOp) (count : Byte) (s : State) : Outcome :=
  .next ((s.load ops count).emit (.accept s.host.data))

/-- The accepted request leaves the port and the host presents its next one, if any
(40_sequencer R427; log entry 2). -/
def State.releasePort (s : State) : State :=
  { s with
    host := match s.host.later with
      | [] => { s.host with valid := false }
      | w :: ws => ⟨true, w, ws⟩ }

/-! ## The timer and the queue (40_sequencer section 3) -/

/-- One cycle of the timer with TMR > 0 (40_sequencer R431). -/
def State.tick (s : State) : State :=
  if s.pre = s.cfg.cycPerUs - 1 then { s with pre := 0, tmr := s.tmr - 1 }
  else { s with pre := s.pre + 1 }

/-- The head `Wait(n)` is loaded and removed (40_sequencer R423). -/
def State.startWait (us : BitVec 16) (s : State) : State :=
  { s with tmr := us, pre := 0, uq := s.uq.tail }

/-- The head `ExpSet` is presented: `EXPQ <- (line, level, latch)` (40_sequencer R422). -/
def State.present (op : ExpOp) (s : State) : State := { s with expq := some op }

/-- The acknowledged `ExpSet` leaves EXPQ and the queue (40_sequencer R422). -/
def State.finishSet (s : State) : State := { s with expq := none, uq := s.uq.tail }

/-- The head `Done(c)`: UQ emptied, BUSY cleared (40_sequencer R424). -/
def State.finish (s : State) : State := { s with uq := [], busy := false }

/-! ## The expander (20_memory R210) -/

/-- `v` with bit `i` set to `level`; a line past the eighth does not exist and changes nothing. -/
def setLevelBit (v : BitVec 8) (i : Nat) (level : Bool) : BitVec 8 :=
  if level then v ||| (1#8 <<< i) else v &&& ~~~(1#8 <<< i)

/-- `setLevel(i, l, latch)`: stage the level; latch-now commits every staged level. -/
def Expander.setLevel (op : ExpOp) (e : Expander) : Expander :=
  let staged := setLevelBit e.staged op.line op.level
  { e with
    staged := staged
    phys := match op.latch with
      | .defer => e.phys
      | .now => staged }

/-- The level of `exp_ack` in this cycle (log entry 4). -/
def Expander.ackNow (e : Expander) : Bool :=
  match e.acks with
  | [] => e.ackRest
  | a :: _ => a

/-- The acknowledge script after one cycle of a presented operation. -/
def Expander.popAck (e : Expander) : Expander := { e with acks := e.acks.tail }

/-- The expander of the state replaced. -/
def State.withExpander (e : Expander) (s : State) : State := { s with expander := e }

/-- One cycle of a presented operation passes for the acknowledge script. -/
def State.popAck (s : State) : State := s.withExpander s.expander.popAck

/-- One cycle passes for the other clients' script. -/
def State.popClient (s : State) : State := { s with clients := s.clients.tail }

/-! ## The LCD -/

/-- The LCD of the state replaced. -/
def State.withLcd (l : Lcd) (s : State) : State := { s with lcd := l }

/-- A free value has been taken; the next one is another. -/
def State.useFresh (s : State) : State := { s with fresh := s.fresh + 1 }

/-- Whether E rises between two sets of physical levels; the LCD samples its lines then
(20_memory R241, R242; log entry 10). -/
def eRises (la : LineAssignment) (old new : BitVec 8) : Bool :=
  !old.getLsbD la.en && new.getLsbD la.en

/-- The nibble on the data lines: data line k is bit k (20_memory R221). -/
def lineNibble (la : LineAssignment) (phys : BitVec 8) : Nibble :=
  BitVec.ofBool (phys.getLsbD la.d3) ++ BitVec.ofBool (phys.getLsbD la.d2)
    ++ BitVec.ofBool (phys.getLsbD la.d1) ++ BitVec.ofBool (phys.getLsbD la.d0)

/-- The LCD takes a transfer and changes as `f` says. -/
def lcdTake (t : LcdTransfer) (f : Lcd → Lcd) (s : State) : State :=
  s.withLcd { f s.lcd with taken := s.lcd.taken ++ [t] }

/-- The LCD takes a byte that has no format: what it holds then is a FREE VALUE, the transfers it took
apart (30_encoding R320, R325; log entry 14). -/
def lcdUndefined (rs : Bool) (b : Byte) (s : State) : State :=
  (lcdTake (.byte rs b) (fun _ => Config.freeLcd s.fresh) s).useFresh

/-! ## Reset -/

/-- Every register of the block takes its reset value (70_reset_and_hazards R900, 10_state R129); the
configuration, the ports' agents and the trace stay, and the pulse of `rst` is over (log entry 3). -/
def State.resetBlock (s : State) : State :=
  { s with
    shv := false
    fn := none
    dc := none
    em := none
    rc := none
    roff := none
    busy := false
    uq := []
    tmr := 0
    pre := 0
    expq := none
    fault := .none
    finfo := 0
    rst := false }

end Sys2Proof.Machine
end

