-- ==== Sys2Proof/Machine/Addressing.lean ====
section
/-! DEFINITION. Row offsets, cursor addressing, glyph upload, data and raw commands
(43_addressing_data). -/

namespace Sys2Proof.Machine

/-- SET_ROW_OFFSETS, 43_addressing_data R710: the table is replaced and nothing is sent. -/
def execSetRowOffsets (o0 o1 o2 o3 : Byte) (s : State) : Outcome :=
  accept [] 0 (s.setRoff ⟨o0, o1, o2, o3⟩)

/-- SET_CURSOR, 43_addressing_data R720, its faults in the order of 60_exceptions R805. A table that
nothing has written, which SHV = 1 rules out, reads as any unwritten register (10_state R115). -/
def execSetCursor (col row : Byte) (s : State) : Outcome :=
  match s.shv, s.rc, s.roff with
  | true, some rc, some table =>
    if rc = 0 then raiseFault .rowOutOfTable s
    else
      match table.entry (wrappedRow row rc) with
      | some offset => accept (cmd s.cfg.la (byteDdram (ddramAddress col offset))) 0 s
      | none => raiseFault .rowOutOfTable s
  | _, _, _ => raiseFault .notConfigured s

/-- CREATE_CHAR, 43_addressing_data R730: the masked slot's address, then the rows in index order. -/
def execCreateChar (slot : Byte) (bitmap : List Byte) (s : State) : Outcome :=
  accept (cmd s.cfg.la (byteCgram slot) ++ bitmap.flatMap (data s.cfg.la)) 0 s

/-- WRITE, 43_addressing_data R740: completes with the count 1. -/
def execWrite (byte : Byte) (s : State) : Outcome := accept (data s.cfg.la byte) 1 s

/-- COMMAND, 43_addressing_data R750: raw, no shadow is updated. -/
def execCommand (byte : Byte) (s : State) : Outcome := accept (cmd s.cfg.la byte) 0 s

end Sys2Proof.Machine
end

