-- ==== Sys2Proof/Machine/Flags.lean ====
section
/-! DEFINITION. The flag bits of the shadow registers and every computation on them. The block has no
condition codes and no arithmetic flags (10_state R122). -/

namespace Sys2Proof.Machine

/-! ## Flag masks -/

/-- FN bit 3, N: 2-line mode (10_state R105). -/
def flagN : Byte := 0x08
/-- FN bit 2, F: 5x10 characters (10_state R105). -/
def flagF : Byte := 0x04
/-- DC bit 2, D: display on (10_state R106). -/
def flagD : Byte := 0x04
/-- DC bit 1, C: cursor visible (10_state R106). -/
def flagC : Byte := 0x02
/-- DC bit 0, B: cursor blink (10_state R106). -/
def flagB : Byte := 0x01
/-- EM bit 1, ID: left-to-right (10_state R107). -/
def flagID : Byte := 0x02
/-- EM bit 0, S: autoscroll (10_state R107). -/
def flagS : Byte := 0x01

/-! ## Set and clear (42_register_ops R605) -/

/-- `R | m`. -/
def setFlag (m r : Byte) : Byte := r ||| m

/-- `R & ~m`. -/
def clearFlag (m r : Byte) : Byte := r &&& ~~~m

/-! ## The values BEGIN writes (41_initialization section 2) -/

/-- `rows > 1` (41_initialization R502). -/
def twoLine (rows : Byte) : Bool := decide (1 < rows.toNat)

/-- The 5x10 font bit under FONT10_ONE_LINE_ONLY (41_initialization R502). -/
def tallFont (font10OneLineOnly : Bool) (rows : Byte) (size : CharSize) : Bool :=
  decide (size = .dots5x10) && (!font10OneLineOnly || decide (rows.toNat = 1))

/-- FN' (41_initialization R502). -/
def beginFunction (font10OneLineOnly : Bool) (rows : Byte) (size : CharSize) : Byte :=
  (if twoLine rows then flagN else 0x00)
    ||| (if tallFont font10OneLineOnly rows size then flagF else 0x00)

/-- DC' (41_initialization R504). -/
def beginDisplay : Byte := 0x04

/-- EM' (41_initialization R504). -/
def beginEntry : Byte := 0x02

/-- ROFF' (41_initialization R503): the sum is reduced mod 256. -/
def beginOffsets (cols : Byte) : RowOffsets := ⟨0x00, 0x40, cols, BitVec.ofNat 8 (0x40 + cols.toNat)⟩

/-! ## The LCD's registers, written by the fields of a word (30_encoding R320) -/

/-- The on-device function register of DL, N and F (10_state R105). -/
def functionRegister (dl n f : Bool) : Byte :=
  0#3 ++ BitVec.ofBool dl ++ BitVec.ofBool n ++ BitVec.ofBool f ++ 0#2

/-- The on-device display-control register of D, C and B (10_state R106). -/
def displayRegister (d c b : Bool) : Byte :=
  0#5 ++ BitVec.ofBool d ++ BitVec.ofBool c ++ BitVec.ofBool b

/-- The on-device entry-mode register of ID and S (10_state R107). -/
def entryRegister (id sh : Bool) : Byte := 0#6 ++ BitVec.ofBool id ++ BitVec.ofBool sh

end Sys2Proof.Machine
end

