-- ==== Sys2Proof/Machine/Init.lean ====
section
/-! DEFINITION. The initialization family: BEGIN (41_initialization). -/

namespace Sys2Proof.Machine

/-- BEGIN, 41_initialization R510: the shadows of R502 to R504 and the list of R508; legal in every
state a request is accepted in (R511, R512). -/
def execBegin (cols rows : Byte) (size : CharSize) (s : State) : Outcome :=
  let fn := beginFunction s.cfg.font10OneLineOnly rows size
  accept (beginList s.cfg.la fn beginDisplay beginEntry) 0
    (s.configure fn beginDisplay beginEntry rows (beginOffsets cols))

end Sys2Proof.Machine
end

