-- ==== Sys2Proof/Machine/LcdWords.lean ====
section
/-! DEFINITION. The words the LCD takes (30_encoding R320) and the lone nibbles (R324): what the LCD of
10_state R123 holds when it has taken one. Nothing of the block changes. Its display memory and its
display shift are out of scope (00_scope R7; log entry 23). -/

namespace Sys2Proof.Machine

/-- CLR: DDRAM is selected (70_reset_and_hazards R932); the address is the LCD's (42_register_ops
R600), a FREE VALUE. -/
def execLcdClearDisplay (s : State) : Outcome :=
  .next (lcdTake (.byte false codeClear)
    (fun l => { l with space := .ddram, addr := Config.freeAddr s.fresh }) s).useFresh

/-- HOME: the cursor returns to the origin (42_register_ops R601), DDRAM address 0 (log entry 13). -/
def execLcdReturnHome (x : BitVec 1) (s : State) : Outcome :=
  .next (lcdTake (.byte false (codeHome ||| x.setWidth 8))
    (fun l => { l with space := .ddram, addr := 0 }) s)

/-- ENTRY: the on-device entry-mode register (10_state R107, 70_reset_and_hazards R930). -/
def execLcdEntryModeSet (id sh : Bool) (s : State) : Outcome :=
  .next (lcdTake (.byte false (codeEntry ||| entryRegister id sh))
    (fun l => { l with em := entryRegister id sh }) s)

/-- DISP: the on-device display-control register (10_state R106, 70_reset_and_hazards R930). -/
def execLcdDisplayControl (d c b : Bool) (s : State) : Outcome :=
  .next (lcdTake (.byte false (codeDisplay ||| displayRegister d c b))
    (fun l => { l with dc := displayRegister d c b }) s)

/-- SHIFT: a shift of the display or the cursor, the LCD's own (30_encoding R325): the address is a
FREE VALUE. -/
def execLcdCursorDisplayShift (sc rl : Bool) (x : BitVec 2) (s : State) : Outcome :=
  .next (lcdTake
    (.byte false (codeShift ||| (0#4 ++ BitVec.ofBool sc ++ BitVec.ofBool rl ++ x)))
    (fun l => { l with addr := Config.freeAddr s.fresh }) s).useFresh

/-- The bus phase that DL selects: 1 the 8-bit bus, 0 the 4-bit bus at a nibble boundary
(10_state R105, 41_initialization R513, 70_reset_and_hazards R930). -/
def busOf (dl : Bool) : BusPhase := if dl then .eightBit else .fourBit

/-- FUNC: the on-device function register and the bus it selects. -/
def execLcdFunctionSet (dl n f : Bool) (x : BitVec 2) (s : State) : Outcome :=
  .next (lcdTake (.byte false (0x20 ||| functionRegister dl n f ||| x.setWidth 8))
    (fun l => { l with fn := functionRegister dl n f, phase := busOf dl }) s)

/-- CGRAM: the address counter selects CGRAM at `addr` (20_memory R204, 70_reset_and_hazards R932). -/
def execLcdSetCgramAddr (addr : BitVec 6) (s : State) : Outcome :=
  .next (lcdTake (.byte false (codeCgram ||| addr.setWidth 8))
    (fun l => { l with space := .cgram, addr := addr.setWidth 7 }) s)

/-- DDRAM: the address counter selects DDRAM at `addr` (20_memory R203, 70_reset_and_hazards R932). DESIGN
CHOICE (log entry 26): the LCD's address is the 7-bit address sent, for every value, one past the last
cell of a row included; what the LCD does with such an address the spec leaves to the LCD (U3 of
93_implementation_defined). -/
def execLcdSetDdramAddr (addr : BitVec 7) (s : State) : Outcome :=
  .next (lcdTake (.byte false (codeDdram ||| addr.setWidth 8))
    (fun l => { l with space := .ddram, addr := addr }) s)

/-- DATA: a byte into the selected memory, which stays selected; the address after it is the LCD's own
auto-increment (20_memory R204), a FREE VALUE. -/
def execLcdWriteData (byte : Byte) (s : State) : Outcome :=
  .next (lcdTake (.byte true byte)
    (fun l => { l with addr := Config.freeAddr s.fresh }) s).useFresh

/-- The lone nibble `n` as a function set with the given DL (41_initialization R506, R513): N and F
come from lines that no rule wires, a FREE VALUE (log entry 11). -/
def lcdLoneNibble (n : Nibble) (dl : Bool) (s : State) : Outcome :=
  let low := Config.freeNibble s.fresh
  .next (lcdTake (.nibble false n)
    (fun l => { l with
      fn := functionRegister dl (low.getLsbD 3) (low.getLsbD 2)
      phase := busOf dl }) s).useFresh

/-- The lone nibble 0x3: an 8-bit function set. -/
def execLcdNibble8BitFunctionSet (s : State) : Outcome := lcdLoneNibble 0x3 true s

/-- The lone nibble 0x2: the switch to 4-bit mode. -/
def execLcdNibble4BitFunctionSet (s : State) : Outcome := lcdLoneNibble 0x2 false s

end Sys2Proof.Machine
end

