-- ==== Sys2Proof/Machine/RegisterOps.lean ====
section
/-! DEFINITION. Clear, home, the ten register toggles and the two display shifts (42_register_ops). -/

namespace Sys2Proof.Machine

/-! ## Clear and home -/

/-- CLEAR, 42_register_ops R600. -/
def execClear (s : State) : Outcome := accept (cmd s.cfg.la codeClear ++ [.wait tLong]) 0 s

/-- HOME, 42_register_ops R601. -/
def execHome (s : State) : Outcome := accept (cmd s.cfg.la codeHome ++ [.wait tLong]) 0 s

/-! ## The toggle pattern (42_register_ops R605) -/

/-- A toggle of DC: NOT_CONFIGURED while SHV = 0 or DC is unwritten (60_exceptions R802, 10_state
R115); otherwise DC becomes `f DC` and the whole register byte is sent. -/
def toggleDc (f : Byte → Byte) (s : State) : Outcome :=
  match s.shv, s.dc with
  | true, some v => accept (cmd s.cfg.la (codeDisplay ||| f v)) 0 (s.setDc (f v))
  | _, _ => raiseFault .notConfigured s

/-- A toggle of EM, as `toggleDc`. -/
def toggleEm (f : Byte → Byte) (s : State) : Outcome :=
  match s.shv, s.em with
  | true, some v => accept (cmd s.cfg.la (codeEntry ||| f v)) 0 (s.setEm (f v))
  | _, _ => raiseFault .notConfigured s

/-- DISPLAY_ON, 42_register_ops R610. -/
def execDisplay (s : State) : Outcome := toggleDc (setFlag flagD) s

/-- DISPLAY_OFF, 42_register_ops R611. -/
def execNoDisplay (s : State) : Outcome := toggleDc (clearFlag flagD) s

/-- CURSOR_ON, 42_register_ops R612. -/
def execCursor (s : State) : Outcome := toggleDc (setFlag flagC) s

/-- CURSOR_OFF, 42_register_ops R613. -/
def execNoCursor (s : State) : Outcome := toggleDc (clearFlag flagC) s

/-- BLINK_ON, 42_register_ops R614. -/
def execBlink (s : State) : Outcome := toggleDc (setFlag flagB) s

/-- BLINK_OFF, 42_register_ops R615. -/
def execNoBlink (s : State) : Outcome := toggleDc (clearFlag flagB) s

/-- LEFT_TO_RIGHT, 42_register_ops R620. -/
def execLeftToRight (s : State) : Outcome := toggleEm (setFlag flagID) s

/-- RIGHT_TO_LEFT, 42_register_ops R621. -/
def execRightToLeft (s : State) : Outcome := toggleEm (clearFlag flagID) s

/-- AUTOSCROLL_ON, 42_register_ops R622. -/
def execAutoscroll (s : State) : Outcome := toggleEm (setFlag flagS) s

/-- AUTOSCROLL_OFF, 42_register_ops R623. -/
def execNoAutoscroll (s : State) : Outcome := toggleEm (clearFlag flagS) s

/-! ## Display shift -/

/-- SCROLL_LEFT, 42_register_ops R630. -/
def execScrollDisplayLeft (s : State) : Outcome := accept (cmd s.cfg.la byteScrollLeft) 0 s

/-- SCROLL_RIGHT, 42_register_ops R631. -/
def execScrollDisplayRight (s : State) : Outcome := accept (cmd s.cfg.la byteScrollRight) 0 s

end Sys2Proof.Machine
end

