-- ==== Sys2Proof/Machine/Dispatch.lean ====
section
/-! DEFINITION. The meaning of every instruction: one arm per constructor of Instr, one call an arm. -/

namespace Sys2Proof.Machine

def exec (i : Instr) (s : State) : Host.Outcome State Fault Refusal :=
  match i with
  | .begin cols rows size => Sys2Proof.Machine.execBegin cols rows size s
  | .clear => Sys2Proof.Machine.execClear s
  | .home => Sys2Proof.Machine.execHome s
  | .display => Sys2Proof.Machine.execDisplay s
  | .noDisplay => Sys2Proof.Machine.execNoDisplay s
  | .cursor => Sys2Proof.Machine.execCursor s
  | .noCursor => Sys2Proof.Machine.execNoCursor s
  | .blink => Sys2Proof.Machine.execBlink s
  | .noBlink => Sys2Proof.Machine.execNoBlink s
  | .leftToRight => Sys2Proof.Machine.execLeftToRight s
  | .rightToLeft => Sys2Proof.Machine.execRightToLeft s
  | .autoscroll => Sys2Proof.Machine.execAutoscroll s
  | .noAutoscroll => Sys2Proof.Machine.execNoAutoscroll s
  | .scrollDisplayLeft => Sys2Proof.Machine.execScrollDisplayLeft s
  | .scrollDisplayRight => Sys2Proof.Machine.execScrollDisplayRight s
  | .setRowOffsets o0 o1 o2 o3 => Sys2Proof.Machine.execSetRowOffsets o0 o1 o2 o3 s
  | .setCursor col row => Sys2Proof.Machine.execSetCursor col row s
  | .createChar slot bitmap => Sys2Proof.Machine.execCreateChar slot bitmap s
  | .write byte => Sys2Proof.Machine.execWrite byte s
  | .command byte => Sys2Proof.Machine.execCommand byte s
  | .lcdClearDisplay => Sys2Proof.Machine.execLcdClearDisplay s
  | .lcdReturnHome x => Sys2Proof.Machine.execLcdReturnHome x s
  | .lcdEntryModeSet id sh => Sys2Proof.Machine.execLcdEntryModeSet id sh s
  | .lcdDisplayControl d c b => Sys2Proof.Machine.execLcdDisplayControl d c b s
  | .lcdCursorDisplayShift sc rl x => Sys2Proof.Machine.execLcdCursorDisplayShift sc rl x s
  | .lcdFunctionSet dl n f x => Sys2Proof.Machine.execLcdFunctionSet dl n f x s
  | .lcdSetCgramAddr addr => Sys2Proof.Machine.execLcdSetCgramAddr addr s
  | .lcdSetDdramAddr addr => Sys2Proof.Machine.execLcdSetDdramAddr addr s
  | .lcdWriteData byte => Sys2Proof.Machine.execLcdWriteData byte s
  | .lcdNibble8BitFunctionSet => Sys2Proof.Machine.execLcdNibble8BitFunctionSet s
  | .lcdNibble4BitFunctionSet => Sys2Proof.Machine.execLcdNibble4BitFunctionSet s

end Sys2Proof.Machine
end

