-- ==== Sys2Proof/Machine/Cycle.lean ====
section
/-! DEFINITION. One clock cycle (40_sequencer section 3, 70_reset_and_hazards section 1): the other
clients of the expander, reset, acceptance of a request, the timer, the head of the queue; and the LCD
at the far end of the lines. -/

namespace Sys2Proof.Machine

/-! ## The LCD at the lines -/

/-- The LCD runs a whole byte: the instruction the formats of 30_encoding R320 give it, or an unknown
effect where they give none. -/
def lcdRun (rs : Bool) (b : Byte) (s : State) : Outcome :=
  match decodeLcd (LcdWord.of rs b) with
  | .ok i => exec i s
  | .error _ => .next (lcdUndefined rs b s)

/-- The LCD takes the nibble on its lines by its bus phase (41_initialization R513, 30_encoding R324):
in 4-bit mode a high nibble waits for its low one; in 8-bit mode the nibble is the high half of a byte
whose low half no rule wires (log entry 11). -/
def lcdNibble (rs : Bool) (n : Nibble) (s : State) : Outcome :=
  match s.lcd.phase with
  | .fourBit => .next (s.withLcd { s.lcd with phase := .fourBitLow n })
  | .fourBitLow high => lcdRun rs (high ++ n) (s.withLcd { s.lcd with phase := .fourBit })
  | .eightBit =>
    match decodeNibble (LoneNibble.of rs n) with
    | .ok i => exec i s
    | .error _ => lcdRun rs (n ++ Config.freeNibble s.fresh) s.useFresh

/-- The expander performs an operation (20_memory R210), and where E rises by it the LCD takes a nibble
(20_memory R242). -/
def performOp (op : ExpOp) (s : State) : Outcome :=
  let e := s.expander.setLevel op
  if eRises s.cfg.la s.expander.phys e.phys then
    lcdNibble (e.phys.getLsbD s.cfg.la.rs) (lineNibble s.cfg.la e.phys) (s.withExpander e)
  else .next (s.withExpander e)

/-! ## The parts of a cycle -/

/-- Another client of the expander acts, if its script says so (20_memory R241); one that writes a line
of the LineAssignment is outside the model (70_reset_and_hazards R934). -/
def serveClients (s : State) : Outcome :=
  match s.clients with
  | [] => .next s
  | none :: _ => .next s.popClient
  | some op :: _ =>
    if op.line ∈ s.cfg.la.lines then .refused .foreignLineWrite else performOp op s.popClient

/-- A cycle with `rst` = 1 (70_reset_and_hazards R900). Whether the expander performed the operation
that reset cuts off is a FREE VALUE (R901; log entry 15). -/
def resetCycle (s : State) : Outcome :=
  mapNext State.resetBlock
    (match s.expq with
      | none => .next s
      | some op =>
        if Config.freeCut s.fresh then performOp op s.useFresh else .next s.useFresh)

/-- The request on the port is taken (40_sequencer R420): an unassigned opcode faults, any other word
runs its instruction; the host then presents its next request. -/
def acceptCycle (s : State) : Outcome :=
  mapNext State.releasePort
    (match decode s.host.data with
      | .ok i => exec i s
      | .error _ => raiseFault .illegalRequest s)

/-- The head of the queue, by 40_sequencer R422, R423 and R424, with TMR = 0. -/
def queueCycle (s : State) : Outcome :=
  match s.expq, s.uq with
  | none, .expSet op :: _ => .next (s.present op)
  | none, .wait us :: _ => .next ((s.startWait us).emit (.wait us))
  | none, .done c :: _ => .next (s.finish.emit (.done c))
  | some op, .expSet _ :: _ =>
    if s.expander.ackNow then performOp op (s.popAck.finishSet.emit (.expSet op))
    else .next s.popAck
  | _, _ => .fault .noRule

/-- The block's cycle with `rst` = 0: acceptance when ready and a request is presented; the timer while
it counts; the queue while busy; otherwise nothing (40_sequencer R420 to R425, 60_exceptions R812). -/
def blockCycle (s : State) : Outcome :=
  if s.ready && s.host.valid then acceptCycle s
  else if s.tmr ≠ 0 then .next s.tick
  else if s.busy then queueCycle s
  else .next s

/-- One rising edge of the clock; `rst` wins over everything (60_exceptions R814). -/
def cycle (s : State) : Outcome :=
  andThen (serveClients s) fun s => if s.rst then resetCycle s else blockCycle s

/-! ## Performing a list at once, for statements about the lines -/

/-- The micro-operations performed in order on the expander and the LCD, with no clock: the trace-level
view of 40_sequencer R428. -/
def performAll : List MicroOp → State → Outcome
  | [], s => .next s
  | .expSet op :: ops, s => andThen (performOp op s) (performAll ops)
  | .wait _ :: ops, s => performAll ops s
  | .done _ :: ops, s => performAll ops s

/-- As `performAll`, with the other clients' operations `gaps` performed before each micro-operation,
the first list before the first (20_memory R241); the gaps left over are not performed. -/
def performAllShared : List (List ExpOp) → List MicroOp → State → Outcome
  | _, [], s => .next s
  | [], op :: ops, s => performAll (op :: ops) s
  | gap :: gaps, op :: ops, s =>
    andThen (performAll (gap.map .expSet) s) fun s =>
      andThen (performAll [op] s) (performAllShared gaps ops)

/-! ## Placing an instruction where the next cycle runs it -/

/-- A request on the port of an idle, unfaulted block. -/
def State.placeRequest (w : Request) (s : State) : State :=
  { s with
    busy := false, uq := [], tmr := 0, pre := 0, expq := none, fault := .none, rst := false
    clients := []
    host := { s.host with valid := true, data := w } }

/-- The lines of the expander with RS and the data lines at the given levels and E low, staged and
physical. -/
def linesFor (la : LineAssignment) (rs : Bool) (n : Nibble) (v : BitVec 8) : BitVec 8 :=
  setLevelBit (setLevelBit (setLevelBit (setLevelBit (setLevelBit (setLevelBit v
    la.rs rs) la.d0 (n.getLsbD 0)) la.d1 (n.getLsbD 1)) la.d2 (n.getLsbD 2)) la.d3 (n.getLsbD 3))
    la.en false

/-- The block about to have its E-high operation acknowledged, with the nibble on the lines and the LCD
in the given bus phase: the state of a transfer just before the LCD takes the nibble. -/
def State.placeNibble (phase : BusPhase) (rs : Bool) (n : Nibble) (s : State) : State :=
  let v := linesFor s.cfg.la rs n s.expander.phys
  { s with
    busy := true, tmr := 0, pre := 0, fault := .none, rst := false, clients := []
    uq := [setLine s.cfg.la.en true, .done 0]
    expq := some ⟨s.cfg.la.en, true, .now⟩
    expander := ⟨v, v, [true], s.expander.ackRest⟩
    lcd := { s.lcd with phase := phase } }

/-- A word of any of the three encodings, placed so that the very next cycle runs it (log entry 20). -/
def State.placeEncoded (e : Encoded) (s : State) : State :=
  match e with
  | .request w => s.placeRequest w
  | .lcdWord w =>
    s.placeNibble (.fourBitLow (highNibble w.byte)) (w.getLsbD 8) (lowNibble w.byte)
  | .loneNibble w => s.placeNibble .eightBit (w.getLsbD 4) (w.extractLsb' 0 4)

end Sys2Proof.Machine
end

