-- ==== Sys2Proof/Machine/Step.lean ====
section
/-! DEFINITION. The step: one clock cycle of a valid instance. -/

namespace Sys2Proof.Machine

/-- One clock cycle; a mis-wired block has no step (60_exceptions R806). -/
def step (s : State) : Host.Outcome State Fault Refusal :=
  if s.cfg.valid then cycle s else .refused .invalidInstance

/-- `s` with the instruction of a row of the opcode table where the next step runs it: on the host's
port for a request, on the lines at the LCD for an LCD word or a lone nibble (log entry 20). -/
def State.withFetchWord (s : State) (nbits w : Nat) : State :=
  s.placeEncoded (encodedOfTableWord nbits w)

end Sys2Proof.Machine
end

