-- ==== Sys2Proof/Machine/Assembler.lean ====
section
/-! DEFINITION. The request assembly language (30_encoding R330, R331): a line of text to the request
words it stands for. -/

namespace Sys2Proof.Machine

/-- A line of the language: a request, or one of the two pseudo-instructions of 30_encoding R331. -/
inductive AsmLine where
  | request (i : Instr)
  /-- `begin cols, rows`, which is `begin cols, rows, 5x8`. -/
  | beginShort (cols rows : Byte)
  /-- `write "text"`, one `write` per character, in order. -/
  | writeText (text : List Byte)
  /-- A line with nothing but space or a comment. -/
  | empty
  deriving DecidableEq, Repr

/-- The requests a line stands for, in order (30_encoding R331). -/
def AsmLine.instrs : AsmLine → List Instr
  | .request i => [i]
  | .beginShort cols rows => [.begin cols rows .dots5x8]
  | .writeText text => text.map .write
  | .empty => []

/-- The request words of a line, every unused byte 0 (30_encoding R330); an LCD word is no request. -/
def AsmLine.words (l : AsmLine) : List Request :=
  l.instrs.filterMap fun i =>
    match encode i with
    | .request w => some w
    | .lcdWord _ => none
    | .loneNibble _ => none

/-! ## Reading text -/

/-- Space and tab. -/
def isBlank (c : Char) : Bool := decide (c = ' ') || decide (c = '\t')

/-- The text without the blanks at either end. -/
def trimBlanks (cs : List Char) : List Char :=
  ((cs.dropWhile isBlank).reverse.dropWhile isBlank).reverse

/-- The text before the comment; the flag says whether the place is inside a text in double quotes.
DESIGN CHOICE (log entry 25): a semicolon inside a text or a character literal starts no comment. Outside a
text an apostrophe, any one character and an apostrophe are a literal, read from the left, so three
apostrophes are the literal of the apostrophe, with or without a comment after it; any other apostrophe
opens nothing. -/
def stripComment : Bool → List Char → List Char
  | _, [] => []
  | true, c :: cs => c :: stripComment (c != '"') cs
  | false, '\'' :: c :: '\'' :: cs => '\'' :: c :: '\'' :: stripComment false cs
  | false, c :: cs => if c = ';' then [] else c :: stripComment (c == '"') cs

/-- The value of a digit in a base up to 16. -/
def digitValue (base : Nat) (c : Char) : Option Nat :=
  let n := c.toNat
  let v :=
    if 48 ≤ n ∧ n ≤ 57 then n - 48
    else if 97 ≤ n ∧ n ≤ 102 then n - 87
    else if 65 ≤ n ∧ n ≤ 70 then n - 55
    else base
  if v < base then some v else none

/-- The value of a run of digits. -/
def digitsValue (base : Nat) : Nat → List Char → Option Nat
  | acc, [] => some acc
  | acc, c :: cs =>
    match digitValue base c with
    | some v => digitsValue base (acc * base + v) cs
    | none => none

/-- A number in decimal or `0x` hexadecimal, at most 255 (30_encoding R330, R302). -/
def readNumber (cs : List Char) : Option Byte :=
  let value :=
    match cs with
    | [] => none
    | '0' :: 'x' :: [] => none
    | '0' :: 'x' :: ds => digitsValue 16 0 ds
    | ds => digitsValue 10 0 ds
  match value with
  | some n => if n < 256 then some (BitVec.ofNat 8 n) else none
  | none => none

/-- The ASCII code of a character. -/
def asciiByte (c : Char) : Option Byte :=
  if c.toNat < 128 then some (BitVec.ofNat 8 c.toNat) else none

/-- The byte of WRITE and COMMAND: a number, or a character literal (30_encoding R330). DESIGN CHOICE (log
entry 25): the one character between the apostrophes may be an apostrophe too. -/
def readByte (cs : List Char) : Option Byte :=
  match cs with
  | ['\'', c, '\''] => asciiByte c
  | _ => readNumber cs

/-- The operands between commas, trimmed. -/
def splitOperands : List Char → List (List Char)
  | [] => [[]]
  | c :: cs =>
    match splitOperands cs with
    | [] => [[c]]
    | x :: xs => if c = ',' then [] :: x :: xs else (c :: x) :: xs

/-- Every element read, or none. -/
def readAll (f : List Char → Option Byte) : List (List Char) → Option (List Byte)
  | [] => some []
  | x :: xs =>
    match f (trimBlanks x), readAll f xs with
    | some b, some bs => some (b :: bs)
    | _, _ => none

/-- The requests that take no operand, by mnemonic (30_encoding R301). -/
def plainRequests : List (List Char × Instr) :=
  [("clear".toList, .clear), ("home".toList, .home), ("display".toList, .display),
   ("noDisplay".toList, .noDisplay), ("cursor".toList, .cursor), ("noCursor".toList, .noCursor),
   ("blink".toList, .blink), ("noBlink".toList, .noBlink),
   ("leftToRight".toList, .leftToRight), ("rightToLeft".toList, .rightToLeft),
   ("autoscroll".toList, .autoscroll), ("noAutoscroll".toList, .noAutoscroll),
   ("scrollDisplayLeft".toList, .scrollDisplayLeft),
   ("scrollDisplayRight".toList, .scrollDisplayRight)]

/-- A quoted text as bytes (30_encoding R331). DESIGN CHOICE (log entry 25): there is no escape, so a double
quote inside the text makes the line no line of the language; the empty text is a line of no requests. -/
def readText (cs : List Char) : Option (List Byte) :=
  match cs with
  | '"' :: rest =>
    match rest.reverse with
    | '"' :: text => if '"' ∈ text then none else text.reverse.mapM asciiByte
    | _ => none
  | _ => none

/-- `begin cols, rows, size` and `begin cols, rows`. -/
def readBegin (operands : List (List Char)) : Option AsmLine :=
  match operands.map trimBlanks with
  | [c, r] =>
    match readNumber c, readNumber r with
    | some cols, some rows => some (.beginShort cols rows)
    | _, _ => none
  | [c, r, z] =>
    match readNumber c, readNumber r with
    | some cols, some rows =>
      if z = "5x8".toList then some (.request (.begin cols rows .dots5x8))
      else if z = "5x10".toList then some (.request (.begin cols rows .dots5x10))
      else none
    | _, _ => none
  | _ => none

/-- One line: a mnemonic, then operands separated by commas (30_encoding R330); `none` where the text
is no line of the language. -/
def parseLine (text : List Char) : Option AsmLine :=
  let line := trimBlanks (stripComment false text)
  let word := line.takeWhile (fun c => !isBlank c)
  let rest := trimBlanks (line.dropWhile (fun c => !isBlank c))
  let numbers := readAll readNumber (splitOperands rest)
  if line = [] then some .empty
  else if word = "begin".toList then readBegin (splitOperands rest)
  else if word = "setRowOffsets".toList then
    match numbers with
    | some [o0, o1, o2, o3] => some (.request (.setRowOffsets o0 o1 o2 o3))
    | _ => none
  else if word = "setCursor".toList then
    match numbers with
    | some [col, row] => some (.request (.setCursor col row))
    | _ => none
  else if word = "createChar".toList then
    match numbers with
    | some [slot, r0, r1, r2, r3, r4, r5, r6, r7] =>
      some (.request (.createChar slot [r0, r1, r2, r3, r4, r5, r6, r7]))
    | _ => none
  else if word = "write".toList then
    match readByte rest, readText rest with
    | some b, _ => some (.request (.write b))
    | none, some bs => some (.writeText bs)
    | none, none => none
  else if word = "command".toList then
    match readByte rest with
    | some b => some (.request (.command b))
    | none => none
  else if rest = [] then (plainRequests.lookup word).map .request
  else none

/-- The request words of a line of text (30_encoding R330, R331). -/
def assembleLine (text : List Char) : Option (List Request) := (parseLine text).map AsmLine.words

end Sys2Proof.Machine
end

