-- ==== Sys2Proof/Machine/Ports.lean ====
section
/-! DEFINITION. The block's output ports as functions of its state (10_state R125 to R127, 40_sequencer
R424): no rule gives them registers. -/

namespace Sys2Proof.Machine

/-- `req_ready` (10_state R125). -/
def outReqReady (s : State) : Bool := s.ready

/-- `busy` (10_state R126). -/
def outBusy (s : State) : Bool := s.busy

/-- The two bits of a fault code (60_exceptions R800). -/
def FaultCode.bits : FaultCode → BitVec 2
  | .none => 0
  | .illegalRequest => 1
  | .notConfigured => 2
  | .rowOutOfTable => 3

/-- `fault` (10_state R126). -/
def outFault (s : State) : BitVec 2 := s.fault.bits

/-- `done_count` in the one cycle in which `done` is 1: the head of the queue is `Done(c)` and the timer
has expired (40_sequencer R424). DESIGN CHOICE (log entry 22): the outputs do not look at `rst`, so `done`
is 1 in a reset cycle that finds `Done(c)` at the head, although that cycle emits no `Done` (60_exceptions
R814); the spec leaves its level there open. -/
def outDoneCount (s : State) : Option Byte :=
  match s.uq with
  | .done c :: _ => if s.busy && decide (s.tmr = 0) then some c else none
  | _ => none

/-- `done` (10_state R126). -/
def outDone (s : State) : Bool := (outDoneCount s).isSome

/-- `exp_valid` (10_state R127). -/
def outExpValid (s : State) : Bool := s.expq.isSome

/-- `exp_line`, `exp_level` and `exp_latch` (1 is latch now) while `exp_valid` is 1 (10_state R127). -/
def outExp (s : State) : Option (BitVec 3 × Bool × Bool) :=
  s.expq.map fun op => (BitVec.ofNat 3 op.line, op.level, decide (op.latch = .now))

end Sys2Proof.Machine
end

