-- ==== Sys2Proof/Machine/TraceLevel.lean ====
section
/-! DEFINITION. The trace-level step relation of 40_sequencer R428, which abstracts the clock. -/

namespace Sys2Proof.Machine

/-- The block's state with TMR, PRE and EXPQ dropped, its configuration, and the trace so far
(40_sequencer R428). -/
structure Abs where
  cfg : Config
  shv : Bool
  fn : Option Byte
  dc : Option Byte
  em : Option Byte
  rc : Option Byte
  roff : Option RowOffsets
  busy : Bool
  uq : List MicroOp
  fault : FaultCode
  finfo : Request
  trace : List Event
  deriving DecidableEq, Repr

/-- What the trace level sees of a state. -/
def State.abs (s : State) : Abs where
  cfg := s.cfg
  shv := s.shv
  fn := s.fn
  dc := s.dc
  em := s.em
  rc := s.rc
  roff := s.roff
  busy := s.busy
  uq := s.uq
  fault := s.fault
  finfo := s.finfo
  trace := s.trace

/-- A state with this view and the word `w` on the port, everything else as after reset. -/
def Abs.withPort (a : Abs) (w : Request) : State :=
  { State.reset with
    cfg := a.cfg
    shv := a.shv
    fn := a.fn
    dc := a.dc
    em := a.em
    rc := a.rc
    roff := a.roff
    busy := a.busy
    uq := a.uq
    fault := a.fault
    finfo := a.finfo
    trace := a.trace
    host := ⟨true, w, []⟩ }

/-- The labels of the relation. -/
inductive Label where
  | accept (w : Request)
  | performSet
  | performWait
  | complete
  deriving DecidableEq, Repr

/-- The labelled transitions of 40_sequencer R428; `none` where the label is not enabled. -/
def traceStep (a : Abs) (l : Label) : Option Abs :=
  match l with
  | .accept w =>
    if a.busy = false ∧ a.fault = .none then
      match acceptCycle (a.withPort w) with
      | .next t => some t.abs
      | _ => none
    else none
  | .performSet =>
    match a.uq with
    | .expSet op :: rest => some { a with uq := rest, trace := a.trace ++ [.expSet op] }
    | _ => none
  | .performWait =>
    match a.uq with
    | .wait us :: rest => some { a with uq := rest, trace := a.trace ++ [.wait us] }
    | _ => none
  | .complete =>
    match a.uq with
    | .done c :: _ => some { a with uq := [], busy := false, trace := a.trace ++ [.done c] }
    | _ => none

end Sys2Proof.Machine
end

