-- ==== Sys2Proof/Safety.lean ====
section
/-! DEFINITION. The terms claims are made in: the states a request leaves, what two states share, the
invariant of the block, and the end of a run. -/

namespace Sys2Proof.Machine

/-! ## What acceptance and a fault leave -/

/-- `s` after a request with the list `ops` and the completion count `count` was accepted, its shadow
writes apart (40_sequencer R420). -/
def accepted (ops : List MicroOp) (count : Byte) (s : State) : State :=
  { s with
    uq := ops ++ [.done count]
    busy := true
    trace := s.trace ++ [.accept s.host.data] }

/-- `s` after the fault `c` was entered (60_exceptions R810). -/
def faulted (c : FaultCode) (s : State) : State :=
  { s with
    fault := c
    finfo := s.host.data
    trace := s.trace ++ [.fault c] }

/-! ## What two states share -/

/-- The configuration and the environment: ports, clients, expander, LCD, free values. -/
def SameEnvironment (s t : State) : Prop :=
  t.cfg = s.cfg ∧ t.rst = s.rst ∧ t.host = s.host ∧ t.clients = s.clients
    ∧ t.expander = s.expander ∧ t.lcd = s.lcd ∧ t.fresh = s.fresh

/-- The timer and the expander port of the block. -/
def SameTimer (s t : State) : Prop := t.tmr = s.tmr ∧ t.pre = s.pre ∧ t.expq = s.expq

/-- The fault registers. -/
def SameFault (s t : State) : Prop := t.fault = s.fault ∧ t.finfo = s.finfo

/-- Every shadow and the geometry. -/
def SameShadows (s t : State) : Prop :=
  t.shv = s.shv ∧ t.fn = s.fn ∧ t.dc = s.dc ∧ t.em = s.em ∧ t.rc = s.rc ∧ t.roff = s.roff

/-- The queue and BUSY. -/
def SameQueue (s t : State) : Prop := t.uq = s.uq ∧ t.busy = s.busy

/-- The whole block and its trace (10_state R130). -/
def SameBlock (s t : State) : Prop :=
  SameShadows s t ∧ SameQueue s t ∧ SameTimer s t ∧ SameFault s t ∧ t.trace = s.trace

/-- The inputs of a cycle: the parameters, `rst`, the host's port, the acknowledge script and the other
clients' script (10_state R124, R125, R127). -/
def SameInputs (s t : State) : Prop :=
  t.cfg = s.cfg ∧ t.rst = s.rst ∧ t.host = s.host ∧ t.clients = s.clients
    ∧ t.expander.acks = s.expander.acks ∧ t.expander.ackRest = s.expander.ackRest

/-! ## The invariant -/

/-- The waits any list holds (60_exceptions R816). -/
def legalWaits : List (BitVec 16) := [1, 50, 150, 2000, 4500, 50000]

/-- A micro-operation on one of the block's six lines (20_memory R201), or a wait of R816. -/
def microOpOk (la : LineAssignment) : MicroOp → Bool
  | .expSet op => decide (op.line ∈ la.lines)
  | .wait us => decide (us ∈ legalWaits)
  | .done _ => false

/-- Micro-operations, then one final `Done` with the count 0 or 1 (10_state R117, R126). -/
def queueOk (la : LineAssignment) : List MicroOp → Bool
  | [] => false
  | [.done c] => decide (c = 0 ∨ c = 1)
  | op :: ops => microOpOk la op && queueOk la ops

/-- No bit outside the flags of its register is set in a shadow (10_state R105 to R108). -/
def shadowsLegal (s : State) : Bool :=
  s.fn.all (fun v => decide (v &&& 0xF3 = 0))
    && s.dc.all (fun v => decide (v &&& 0xF8 = 0))
    && s.em.all (fun v => decide (v &&& 0xFC = 0))

/-- SHV says exactly whether FN, DC, EM and RC hold values, and with it the table holds one
(10_state R111, R112). -/
def shadowsMatchShv (s : State) : Bool :=
  if s.shv then s.fn.isSome && s.dc.isSome && s.em.isSome && s.rc.isSome && s.roff.isSome
  else s.fn.isNone && s.dc.isNone && s.em.isNone && s.rc.isNone

/-- Idle means an empty queue, a stopped timer and no outstanding operation (10_state R121); busy means
a well-formed queue that fits R117's capacity. -/
def queueMatchesBusy (s : State) : Bool :=
  if s.busy then queueOk s.cfg.la s.uq && decide (s.uq.length ≤ 190)
  else decide (s.uq = []) && decide (s.tmr = 0) && decide (s.expq = none)

/-- The outstanding operation is the head of the queue, and the timer is stopped (40_sequencer R422). -/
def outstandingIsHead (s : State) : Bool :=
  match s.expq, s.uq with
  | none, _ => true
  | some op, .expSet op' :: _ => decide (op = op') && decide (s.tmr = 0)
  | some _, _ => false

/-- The invariant of every run of a valid instance. -/
structure Inv (s : State) : Prop where
  valid : s.cfg.valid = true
  legal : shadowsLegal s = true
  configured : shadowsMatchShv s = true
  queue : queueMatchesBusy s = true
  outstanding : outstandingIsHead s = true
  /-- PRE counts in 0..CYC_PER_US-1 (10_state R118). -/
  prescaler : s.pre < s.cfg.cycPerUs
  /-- A faulted block is idle (60_exceptions R810). -/
  faultedIdle : s.fault ≠ .none → s.busy = false

/-! ## The LCD in step with the block -/

/-- The levels of E are the same staged and physical: nothing but the block has touched E since its
last latch-now (40_sequencer R401). -/
def EnableSettled (s : State) : Prop :=
  s.expander.staged.getLsbD s.cfg.la.en = s.expander.phys.getLsbD s.cfg.la.en

/-- The LCD is in 4-bit mode at a nibble boundary and its registers are what the shadows say
(10_state R104). -/
def LcdInStep (s : State) : Prop :=
  s.lcd.phase = .fourBit ∧ s.fn = some s.lcd.fn ∧ s.dc = some s.lcd.dc ∧ s.em = some s.lcd.em

/-! ## Runs -/

/-- `k` cycles in a row, stopping at the first fault or refusal. -/
def runCycles : Nat → State → Outcome
  | 0, s => .next s
  | k + 1, s => andThen (step s) (runCycles k)

/-! ## The end of a run -/

/-- The host's stream is over: nothing on the port and nothing to come. -/
def HostPort.exhausted (h : HostPort) : Bool := decide (h.valid = false) && decide (h.later = [])

/-- The last event is a `Done`: the last request the block took has completed, and neither a fault nor a
reset cut it off. A trace with no event has no last request (log entry 27). -/
def endsWithDone (events : List Event) : Bool :=
  match events.getLast? with
  | some (.done _) => true
  | _ => false

/-- A state in which a run may end: idle, unfaulted, the host's stream over, and its last request has
emitted its `Done` (70_reset_and_hazards R940). -/
def State.final (s : State) : Bool :=
  decide (s.busy = false) && decide (s.uq = []) && decide (s.fault = .none)
    && s.host.exhausted && endsWithDone s.trace

end Sys2Proof.Machine
end

