-- ==== Sys2Proof/Certificates/Slice0/Obligations.lean ====
section
/-! DEFINITION. The statements for the provers, from the numbered rules of spec/. -/

open Sys2Proof Sys2Proof.Machine

/-! ## Decoding and encoding -/

/-- 30_encoding R300 to R304, R320, R324: the encoder drops no bit of an operand. -/
def Obligations.DecodeOfEncodeIsTheInstruction : Prop :=
  ∀ i : Instr, WellFormed i = true → decodeEncoded (encode i) = .ok i

/-- Words written out from the spec (95_test_vectors V53, V54; 41_initialization R506) decode to the
instructions they stand for. -/
def Obligations.SpecWordsDecode : Prop :=
  decode 0x00000000000001041400 = .ok (.begin 20 4 .dots5x10)
    ∧ decode 0x00000000000000000001 = .ok .clear
    ∧ decode 0x0000000000000000000A = .ok .rightToLeft
    ∧ decode 0x0000000000541440000F = .ok (.setRowOffsets 0x00 0x40 0x14 0x54)
    ∧ decode 0x00110A041F040A110211
        = .ok (.createChar 2 [0x11, 0x0A, 0x04, 0x1F, 0x04, 0x0A, 0x11, 0x00])
    ∧ decode 0x00000000000000004112 = .ok (.write 0x41)
    ∧ decodeLcd 0x028 = .ok (.lcdFunctionSet false true false 0)
    ∧ decodeLcd 0x0C5 = .ok (.lcdSetDdramAddr 0x45)
    ∧ decodeLcd 0x141 = .ok (.lcdWriteData 0x41)
    ∧ decodeNibble 0x03 = .ok .lcdNibble8BitFunctionSet
    ∧ decodeNibble 0x02 = .ok .lcdNibble4BitFunctionSet

/-- The bits of the request word that the operation of an opcode uses (30_encoding R301, R302): the
opcode byte and the operands' bytes, of BEGIN's a2 bit 0 alone, of CREATE_CHAR's a0 bits 2..0. -/
def usedBits (op : Nat) : Request :=
  match op with
  | 0x00 => 0x01FFFFFF
  | 0x0F => 0xFFFFFFFFFF
  | 0x10 => 0xFFFFFF
  | 0x11 => 0xFFFFFFFFFFFFFFFF07FF
  | 0x12 => 0xFFFF
  | 0x13 => 0xFFFF
  | _ => 0xFF

/-- 30_encoding R303: two words that agree on the bits their opcode uses have the same meaning in every
state; an assigned opcode is rejected for no value of its unused bits. -/
def Obligations.UnusedRequestBitsAreIgnored : Prop :=
  ∀ w w' : Request,
    w &&& usedBits (Request.byte 0 w).toNat = w' &&& usedBits (Request.byte 0 w).toNat →
    (Request.byte 0 w).toNat < 0x14 →
    ∃ i i', decode w = .ok i ∧ decode w' = .ok i' ∧ ∀ s, exec i s = exec i' s

/-- 30_encoding R304, 60_exceptions R801: opcodes 0x14..0xFF are not performed and raise
ILLEGAL_REQUEST, whatever the shadows hold (R805: checked first). That the fault takes the word from the
port and the host then presents its next one is the model's choice (log entry 2). -/
def Obligations.UnassignedOpcodesFault : Prop :=
  ∀ s : State, s.cfg.valid = true → s.clients = [] → s.rst = false → s.ready = true →
    s.host.valid = true → 0x14 ≤ (Request.byte 0 s.host.data).toNat →
    step s = .next (State.releasePort (faulted .illegalRequest s))

/-- 30_encoding R320: every word with RS = 1, and every byte with RS = 0 but 0x00, has exactly one
format, and the format's fields are all of its bits. -/
def Obligations.LcdFormatsPartitionTheWords : Prop :=
  ∀ w : LcdWord,
    (w = 0 ↔ ∃ e, decodeLcd w = .error e)
      ∧ ∀ i, decodeLcd w = .ok i → encode i = .lcdWord w

/-! ## The step runs the decoded instruction -/

/-- 40_sequencer R420: the cycle of a ready block with a request on its port runs exec of what the word
decodes to; around it, the host presents its next request (log entry 2). -/
def Obligations.StepRunsTheDecodedRequest : Prop :=
  ∀ (s : State) (i : Instr), s.cfg.valid = true → s.clients = [] → s.rst = false →
    s.ready = true → s.host.valid = true → decode s.host.data = .ok i →
    WellFormed i = true ∧ step s = mapNext State.releasePort (exec i s)

/-- 20_memory R242, 30_encoding R320, R324: the cycle in which the expander acknowledges an operation
that raises E runs exec of the word which that nibble completes at the LCD: a whole byte in 4-bit mode
with the high nibble taken, a lone nibble in 8-bit mode. What else the cycle does is 40_sequencer R422.
That the LCD acts in this same cycle is the model's choice (log entry 10). -/
def Obligations.StepRunsTheWordAtTheLcd : Prop :=
  ∀ (s : State) (op op' : ExpOp) (rest : List MicroOp) (i : Instr),
    s.cfg.valid = true → s.clients = [] → s.rst = false → s.busy = true → s.tmr = 0 →
    s.expq = some op → s.uq = .expSet op' :: rest → s.expander.ackNow = true →
    eRises s.cfg.la s.expander.phys (s.expander.setLevel op).phys = true →
    let e := (s.expander.popAck).setLevel op
    let rs := e.phys.getLsbD s.cfg.la.rs
    let n := lineNibble s.cfg.la e.phys
    let s' := { s with
      expander := e, expq := none, uq := rest, trace := s.trace ++ [.expSet op] }
    (∀ high, s.lcd.phase = .fourBitLow high → decodeLcd (LcdWord.of rs (high ++ n)) = .ok i →
      step s = exec i { s' with lcd := { s.lcd with phase := .fourBit } })
      ∧ (s.lcd.phase = .eightBit → decodeNibble (LoneNibble.of rs n) = .ok i →
        step s = exec i s')

/-- 60_exceptions R806: a block whose LineAssignment has an index outside 0..7 or two equal indices is
refused, by every step and never by a fault. -/
def Obligations.MiswiredInstanceIsRefused : Prop :=
  ∀ s : State,
    ((∃ l ∈ s.cfg.la.lines, 8 ≤ l) ∨ ¬ s.cfg.la.lines.Nodup) →
    step s = .refused .invalidInstance

/-- 70_reset_and_hazards R934, U6 of 93_implementation_defined: a client of the expander that writes one
of the block's six lines is outside the model. -/
def Obligations.ForeignWriteOfAnOwnLineIsRefused : Prop :=
  ∀ (s : State) (op : ExpOp) (rest : List (Option ExpOp)), s.cfg.valid = true →
    s.clients = some op :: rest → op.line ∈ s.cfg.la.lines →
    step s = .refused .foreignLineWrite

/-! ## Reset -/

/-- 10_state R129: the reset values and the outputs; no ExpSet is issued. FINFO, unspecified there, has
no clause. -/
def Obligations.ResetLeavesR129 : Prop :=
  let s := State.reset
  s.fn = none ∧ s.dc = none ∧ s.em = none ∧ s.rc = none ∧ s.roff = none ∧ s.shv = false
    ∧ s.busy = false ∧ s.uq = [] ∧ s.tmr = 0 ∧ s.pre = 0 ∧ s.expq = none ∧ s.fault = .none
    ∧ outReqReady s = true ∧ outDone s = false ∧ outExpValid s = false ∧ s.trace = []

/-- 70_reset_and_hazards R900, R901, 60_exceptions R814: `rst` completes in one cycle from every state,
in the middle of any request, before anything else; the block takes its values of R129, nothing is
emitted, and exp_valid falls. That the host keeps its word on the port through the reset cycle is the
model's choice (log entry 2). -/
def Obligations.RstReturnsTheBlockToReset : Prop :=
  ∀ s : State, s.cfg.valid = true → s.clients = [] → s.rst = true →
    ∃ t, step s = .next t
      ∧ t.fn = none ∧ t.dc = none ∧ t.em = none ∧ t.rc = none ∧ t.roff = none ∧ t.shv = false
      ∧ t.busy = false ∧ t.uq = [] ∧ t.tmr = 0 ∧ t.pre = 0 ∧ t.expq = none ∧ t.fault = .none
      ∧ outReqReady t = true ∧ outDone t = false ∧ outExpValid t = false
      ∧ t.trace = s.trace ∧ t.host = s.host ∧ t.cfg = s.cfg

/-! ## Primitives and their sizes -/

/-- 40_sequencer R400, R401, R402, R403, R404: the five primitives in full, line by line and bit by
bit. -/
def Obligations.PrimitivesAreTheirLists : Prop :=
  ∀ (la : LineAssignment) (v : Nibble) (b : Byte) (rs : Bool),
    let now (l : Nat) (x : Bool) : MicroOp := .expSet ⟨l, x, .now⟩
    let later (l : Nat) (x : Bool) : MicroOp := .expSet ⟨l, x, .defer⟩
    let p : List MicroOp := [now la.en false, .wait 1, now la.en true, .wait 1, now la.en false, .wait 50]
    pulse la = p
      ∧ nib la v = [later la.d0 (v.getLsbD 0), later la.d1 (v.getLsbD 1),
          later la.d2 (v.getLsbD 2), now la.d3 (v.getLsbD 3)] ++ p
      ∧ send la b rs = [now la.rs rs, later la.d0 (b.getLsbD 4), later la.d1 (b.getLsbD 5),
          later la.d2 (b.getLsbD 6), now la.d3 (b.getLsbD 7)] ++ p
          ++ [later la.d0 (b.getLsbD 0), later la.d1 (b.getLsbD 1), later la.d2 (b.getLsbD 2),
            now la.d3 (b.getLsbD 3)] ++ p
      ∧ cmd la b = send la b false
      ∧ data la b = send la b true

/-- 41_initialization R501, with R505 to R508: position `p` of L_BEGIN is in the state that
`initStateAt` names; the nine slices in order are the list of R508. -/
def Obligations.InitStatesSliceTheBeginList : Prop :=
  ∀ (la : LineAssignment) (fn dc em : Byte),
    beginList la fn dc em = [InitState.power, .coax1, .coax2, .coax3, .fourBit, .func, .disp, .clear,
      .entry].flatMap (initSlice la fn dc em)
    ∧ ∀ (st : InitState) (lo hi : Nat), (st, lo, hi) ∈ [(InitState.power, 0, 2), (.coax1, 3, 13), (.coax2, 14, 24), (.coax3, 25, 35),
      (.fourBit, 36, 45), (.func, 46, 66), (.disp, 67, 87), (.clear, 88, 109), (.entry, 110, 130)] →
    ((beginList la fn dc em).drop lo).take (hi + 1 - lo) = initSlice la fn dc em st
      ∧ ∀ p, initStateAt p = some st ↔ lo ≤ p ∧ p ≤ hi

/-- 40_sequencer R405, 41_initialization R508, 70_reset_and_hazards R950: micro-operations, ExpSets,
Waits and the sum of the waits of each list. -/
def Obligations.ListSizesAreTheSpecs : Prop :=
  ∀ (la : LineAssignment) (b r0 r1 r2 r3 r4 r5 r6 r7 : Byte) (v : Nibble) (rs : Bool)
    (fn dc em : Byte),
    let sizes (l : List MicroOp) := (l.length, expSetCount l, waitCount l, waitMicros l)
    sizes (pulse la) = (6, 3, 3, 52)
      ∧ sizes (nib la v) = (10, 7, 3, 52)
      ∧ sizes (send la b rs) = (21, 15, 6, 104)
      ∧ sizes (cmd la b ++ [.wait tLong]) = (22, 15, 7, 2104)
      ∧ sizes (beginList la fn dc em) = (131, 90, 41, 61774)
      ∧ sizes (cmd la b ++ [r0, r1, r2, r3, r4, r5, r6, r7].flatMap (data la)) = (189, 135, 54, 936)

/-! ## What each request does -/

/-- 41_initialization R510 with R502, R503, R504: BEGIN completes in every state, for every operand,
with the shadows, the geometry and the list of R508. -/
def Obligations.BeginConfiguresAndLoads : Prop :=
  (∀ w : Request, Request.byte 0 w = 0x00 →
    decode w = .ok (.begin (Request.byte 1 w) (Request.byte 2 w)
      (if (Request.byte 3 w).getLsbD 0 then .dots5x10 else .dots5x8)))
  ∧ ∀ (s : State) (cols rows : Byte) (size : CharSize),
    let n : Byte := if rows.toNat > 1 then 0x08 else 0x00
    let f : Byte :=
      if size = .dots5x10 ∧ (s.cfg.font10OneLineOnly = false ∨ rows.toNat = 1) then 0x04 else 0x00
    exec (.begin cols rows size) s = .next
      { accepted (beginList s.cfg.la (n ||| f) 0x04 0x02) 0 s with
        fn := some (n ||| f)
        dc := some 0x04
        em := some 0x02
        rc := some rows
        roff := some ⟨0x00, 0x40, cols, BitVec.ofNat 8 ((0x40 + cols.toNat) % 256)⟩
        shv := true }

/-- 41_initialization R505, R506, R507: the micro-operations of the nine states. -/
def Obligations.InitStatesAreTheirLists : Prop :=
  ∀ (la : LineAssignment) (fn dc em : Byte),
    let slice := initSlice la fn dc em
    slice .power = [.wait 50000, .expSet ⟨la.rs, false, .now⟩, .expSet ⟨la.en, false, .now⟩]
      ∧ slice .coax1 = nib la 0x3 ++ [.wait 4500]
      ∧ slice .coax2 = nib la 0x3 ++ [.wait 4500]
      ∧ slice .coax3 = nib la 0x3 ++ [.wait 150]
      ∧ slice .fourBit = nib la 0x2
      ∧ slice .func = send la (0x20 ||| fn) false
      ∧ slice .disp = send la (0x08 ||| dc) false
      ∧ slice .clear = send la 0x01 false ++ [.wait 2000]
      ∧ slice .entry = send la (0x04 ||| em) false

/-- 41_initialization R512: what a BEGIN writes and loads depends on its operands and the parameters
only, never on the prior state. -/
def Obligations.BeginLeavesNoResidue : Prop :=
  ∀ (s s' t t' : State) (cols rows : Byte) (size : CharSize), s.cfg = s'.cfg →
    exec (.begin cols rows size) s = .next t → exec (.begin cols rows size) s' = .next t' →
    SameShadows t t' ∧ SameQueue t t'

/-- 42_register_ops R600, R601: CLEAR and HOME send their byte, then the long settle, in every state,
SHV = 0 too. -/
def Obligations.ClearAndHomeSendAndSettle : Prop :=
  (∀ w : Request, Request.byte 0 w = 0x01 → decode w = .ok .clear)
  ∧ (∀ w : Request, Request.byte 0 w = 0x02 → decode w = .ok .home)
  ∧ ∀ s : State,
    exec .clear s = .next (accepted (send s.cfg.la 0x01 false ++ [.wait 2000]) 0 s)
      ∧ exec .home s = .next (accepted (send s.cfg.la 0x02 false ++ [.wait 2000]) 0 s)

/-- 42_register_ops R610 to R615 by the pattern of R605: the six toggles of DC, their opcodes, the new
shadow, the whole byte sent, and the fault of an unconfigured block. -/
def Obligations.DisplayTogglesFollowTheirRules : Prop :=
  ∀ p ∈ ([(0x03, .display, fun v => v ||| 0x04), (0x04, .noDisplay, fun v => v &&& ~~~0x04),
      (0x05, .cursor, fun v => v ||| 0x02), (0x06, .noCursor, fun v => v &&& ~~~0x02),
      (0x07, .blink, fun v => v ||| 0x01), (0x08, .noBlink, fun v => v &&& ~~~0x01)] :
      List (Byte × Instr × (Byte → Byte))),
    (∀ w : Request, Request.byte 0 w = p.1 → decode w = .ok p.2.1)
      ∧ (∀ (s : State) (v : Byte), s.shv = true → s.dc = some v →
        exec p.2.1 s = .next
          { accepted (send s.cfg.la (0x08 ||| p.2.2 v) false) 0 s with dc := some (p.2.2 v) })
      ∧ ∀ s : State, s.shv = false → exec p.2.1 s = .next (faulted .notConfigured s)

/-- 42_register_ops R620 to R623 by the pattern of R605: the four toggles of EM. -/
def Obligations.EntryTogglesFollowTheirRules : Prop :=
  ∀ p ∈ ([(0x09, .leftToRight, fun v => v ||| 0x02), (0x0A, .rightToLeft, fun v => v &&& ~~~0x02),
      (0x0B, .autoscroll, fun v => v ||| 0x01), (0x0C, .noAutoscroll, fun v => v &&& ~~~0x01)] :
      List (Byte × Instr × (Byte → Byte))),
    (∀ w : Request, Request.byte 0 w = p.1 → decode w = .ok p.2.1)
      ∧ (∀ (s : State) (v : Byte), s.shv = true → s.em = some v →
        exec p.2.1 s = .next
          { accepted (send s.cfg.la (0x04 ||| p.2.2 v) false) 0 s with em := some (p.2.2 v) })
      ∧ ∀ s : State, s.shv = false → exec p.2.1 s = .next (faulted .notConfigured s)

/-- 42_register_ops R625: of a pair of toggles on flag `m`, the last one decides the bit, and the prior
byte is restored exactly when the first one changed it; the second one sends the byte of the register it
leaves. The pair is run on the shadows alone: the second request's state is what the first left. -/
def Obligations.TogglePairRoundTrip : Prop :=
  (∀ p ∈ ([(.display, .noDisplay, 0x04), (.cursor, .noCursor, 0x02), (.blink, .noBlink, 0x01)] :
      List (Instr × Instr × Byte)),
    ∀ (s : State) (v : Byte), s.shv = true → s.dc = some v →
      (∃ t u, exec p.1 s = .next t ∧ exec p.2.1 t = .next u
        ∧ u.dc = some (v &&& ~~~p.2.2) ∧ (u.dc = s.dc ↔ v &&& p.2.2 = 0)
        ∧ u.uq = send s.cfg.la (0x08 ||| (v &&& ~~~p.2.2)) false ++ [.done 0])
      ∧ ∃ t u, exec p.2.1 s = .next t ∧ exec p.1 t = .next u
        ∧ u.dc = some (v ||| p.2.2) ∧ (u.dc = s.dc ↔ v &&& p.2.2 = p.2.2)
        ∧ u.uq = send s.cfg.la (0x08 ||| (v ||| p.2.2)) false ++ [.done 0])
  ∧ ∀ p ∈ ([(.leftToRight, .rightToLeft, 0x02), (.autoscroll, .noAutoscroll, 0x01)] :
      List (Instr × Instr × Byte)),
    ∀ (s : State) (v : Byte), s.shv = true → s.em = some v →
      (∃ t u, exec p.1 s = .next t ∧ exec p.2.1 t = .next u
        ∧ u.em = some (v &&& ~~~p.2.2) ∧ (u.em = s.em ↔ v &&& p.2.2 = 0)
        ∧ u.uq = send s.cfg.la (0x04 ||| (v &&& ~~~p.2.2)) false ++ [.done 0])
      ∧ ∃ t u, exec p.2.1 s = .next t ∧ exec p.1 t = .next u
        ∧ u.em = some (v ||| p.2.2) ∧ (u.em = s.em ↔ v &&& p.2.2 = p.2.2)
        ∧ u.uq = send s.cfg.la (0x04 ||| (v ||| p.2.2)) false ++ [.done 0]

/-- 42_register_ops R630, R631: the scrolls send 0x18 and 0x1C in every state and write no shadow. -/
def Obligations.ScrollsSendTheirByte : Prop :=
  (∀ w : Request, Request.byte 0 w = 0x0D → decode w = .ok .scrollDisplayLeft)
  ∧ (∀ w : Request, Request.byte 0 w = 0x0E → decode w = .ok .scrollDisplayRight)
  ∧ ∀ s : State,
    exec .scrollDisplayLeft s = .next (accepted (send s.cfg.la 0x18 false) 0 s)
      ∧ exec .scrollDisplayRight s = .next (accepted (send s.cfg.la 0x1C false) 0 s)

/-- 43_addressing_data R710: SET_ROW_OFFSETS replaces the table and sends nothing, in every state. -/
def Obligations.SetRowOffsetsReplacesTheTable : Prop :=
  (∀ w : Request, Request.byte 0 w = 0x0F →
    decode w = .ok (.setRowOffsets (Request.byte 1 w) (Request.byte 2 w) (Request.byte 3 w)
      (Request.byte 4 w)))
  ∧ ∀ (s : State) (o0 o1 o2 o3 : Byte),
    exec (.setRowOffsets o0 o1 o2 o3) s =
      .next { accepted [] 0 s with roff := some ⟨o0, o1, o2, o3⟩ }

/-- 43_addressing_data R720, 60_exceptions R802, R803, R805: SET_CURSOR on a configured block with a
table entry sends its byte; the faults, in their priority. -/
def Obligations.SetCursorAddressesOrFaults : Prop :=
  (∀ w : Request, Request.byte 0 w = 0x10 →
    decode w = .ok (.setCursor (Request.byte 1 w) (Request.byte 2 w)))
  ∧ ∀ (s : State) (col row : Byte),
    (s.shv = false → exec (.setCursor col row) s = .next (faulted .notConfigured s))
    ∧ ∀ (rc : Byte) (t : RowOffsets), s.shv = true → s.rc = some rc → s.roff = some t →
      let r := row.toNat % rc.toNat
      (rc = 0 → exec (.setCursor col row) s = .next (faulted .rowOutOfTable s))
      ∧ (rc ≠ 0 → r > 3 → exec (.setCursor col row) s = .next (faulted .rowOutOfTable s))
      ∧ (rc ≠ 0 → ∀ o : Byte,
          (r = 0 ∧ o = t.o0) ∨ (r = 1 ∧ o = t.o1) ∨ (r = 2 ∧ o = t.o2) ∨ (r = 3 ∧ o = t.o3) →
          exec (.setCursor col row) s = .next
            (accepted (send s.cfg.la
              (0x80 ||| BitVec.ofNat 8 ((col.toNat + o.toNat) % 128)) false) 0 s))

/-- 43_addressing_data R730: CREATE_CHAR sends the masked slot's address and the eight rows, in every
state. -/
def Obligations.CreateCharUploadsTheGlyph : Prop :=
  (∀ w : Request, Request.byte 0 w = 0x11 →
    decode w = .ok (.createChar (Request.byte 1 w)
      [Request.byte 2 w, Request.byte 3 w, Request.byte 4 w, Request.byte 5 w, Request.byte 6 w,
        Request.byte 7 w, Request.byte 8 w, Request.byte 9 w]))
  ∧ ∀ (s : State) (slot r0 r1 r2 r3 r4 r5 r6 r7 : Byte),
    exec (.createChar slot [r0, r1, r2, r3, r4, r5, r6, r7]) s =
      .next (accepted (send s.cfg.la (0x40 ||| ((slot &&& 0x07) <<< 3)) false
        ++ send s.cfg.la r0 true ++ send s.cfg.la r1 true ++ send s.cfg.la r2 true
        ++ send s.cfg.la r3 true ++ send s.cfg.la r4 true ++ send s.cfg.la r5 true
        ++ send s.cfg.la r6 true ++ send s.cfg.la r7 true) 0 s)

/-- 43_addressing_data R740: WRITE sends its byte as data and completes with the count 1, for every
byte in every state. -/
def Obligations.WriteSendsDataAndCountsOne : Prop :=
  (∀ w : Request, Request.byte 0 w = 0x12 → decode w = .ok (.write (Request.byte 1 w)))
  ∧ ∀ (s : State) (b : Byte), exec (.write b) s = .next (accepted (send s.cfg.la b true) 1 s)

/-- 43_addressing_data R750: COMMAND sends its byte raw, for every byte in every state; no shadow is
written and no long settle added. -/
def Obligations.CommandSendsRaw : Prop :=
  (∀ w : Request, Request.byte 0 w = 0x13 → decode w = .ok (.command (Request.byte 1 w)))
  ∧ ∀ (s : State) (b : Byte), exec (.command b) s = .next (accepted (send s.cfg.la b false) 0 s)

/-! ## What each LCD word does -/

/-- 30_encoding R320 with 10_state R105 to R107, 70_reset_and_hazards R930: the words that write an
on-device register complete in every state, with the register's fields and the bus that DL selects. What
the LCD holds is the model's LCD (log entries 9 and 10). -/
def Obligations.LcdRegisterWordsWriteTheirRegister : Prop :=
  ∀ (s : State) (d c b id sh dl n f : Bool) (x : BitVec 2),
    let bit (k : Nat) (v : Bool) : Byte := if v then 1#8 <<< k else 0
    let put (w : Byte) (l : Lcd) : State :=
      { s with lcd := { l with taken := s.lcd.taken ++ [.byte false w] } }
    exec (.lcdDisplayControl d c b) s =
      .next (put (0x08 ||| (bit 2 d ||| bit 1 c ||| bit 0 b))
        { s.lcd with dc := bit 2 d ||| bit 1 c ||| bit 0 b })
    ∧ exec (.lcdEntryModeSet id sh) s =
      .next (put (0x04 ||| (bit 1 id ||| bit 0 sh)) { s.lcd with em := bit 1 id ||| bit 0 sh })
    ∧ exec (.lcdFunctionSet dl n f x) s =
      .next (put (0x20 ||| (bit 4 dl ||| bit 3 n ||| bit 2 f) ||| x.setWidth 8)
        { s.lcd with
          fn := bit 4 dl ||| bit 3 n ||| bit 2 f
          phase := if dl then .eightBit else .fourBit })

/-- 41_initialization R506, R513, 30_encoding R324: the lone nibbles complete in every state: 0x3 selects
the 8-bit bus, 0x2 the 4-bit bus at a nibble boundary, DL being the only flag they fix (N and F are free
values, log entry 11). -/
def Obligations.LoneNibblesSelectTheBus : Prop :=
  ∀ s : State, ∃ n f n' f' : Bool,
    exec .lcdNibble8BitFunctionSet s = .next { s with
      lcd := { s.lcd with
        phase := .eightBit
        fn := 0#3 ++ 1#1 ++ BitVec.ofBool n ++ BitVec.ofBool f ++ 0#2
        taken := s.lcd.taken ++ [.nibble false 0x3] }
      fresh := s.fresh + 1 }
    ∧ exec .lcdNibble4BitFunctionSet s = .next { s with
      lcd := { s.lcd with
        phase := .fourBit
        fn := 0#3 ++ 0#1 ++ BitVec.ofBool n' ++ BitVec.ofBool f' ++ 0#2
        taken := s.lcd.taken ++ [.nibble false 0x2] }
      fresh := s.fresh + 1 }

/-- 20_memory R203, R204, 70_reset_and_hazards R932, 42_register_ops R601: the words that set the address
complete in every state. The model's choices: HOME's origin is DDRAM address 0 (log entry 13), and the LCD
keeps the DDRAM address sent for every value of it (log entry 26). -/
def Obligations.LcdAddressWordsSelectTheirMemory : Prop :=
  ∀ (s : State) (a6 : BitVec 6) (a7 : BitVec 7) (x : BitVec 1),
    let put (w : Byte) (l : Lcd) : State :=
      { s with lcd := { l with taken := s.lcd.taken ++ [.byte false w] } }
    exec (.lcdSetCgramAddr a6) s =
      .next (put (0x40 ||| a6.setWidth 8) { s.lcd with space := .cgram, addr := a6.setWidth 7 })
    ∧ exec (.lcdSetDdramAddr a7) s =
      .next (put (0x80 ||| a7.setWidth 8) { s.lcd with space := .ddram, addr := a7 })
    ∧ exec (.lcdReturnHome x) s =
      .next (put (0x02 ||| x.setWidth 8) { s.lcd with space := .ddram, addr := 0 })

/-- 30_encoding R320, 70_reset_and_hazards R932, 20_memory R204: clear, shift and data words complete in
every state; clear selects DDRAM, data and shift keep the selection; the address is some value of the
LCD's own (a free value, log entry 12). -/
def Obligations.LcdWordsThatLeaveTheAddressToTheLcd : Prop :=
  ∀ (s : State) (sc rl : Bool) (x : BitVec 2) (b : Byte), ∃ a a' a'' : BitVec 7,
    exec .lcdClearDisplay s = .next { s with
      lcd := { s.lcd with
        space := .ddram, addr := a, taken := s.lcd.taken ++ [.byte false 0x01] }
      fresh := s.fresh + 1 }
    ∧ exec (.lcdCursorDisplayShift sc rl x) s = .next { s with
      lcd := { s.lcd with
        addr := a'
        taken := s.lcd.taken ++ [.byte false
          (0x10 ||| (if sc then 0x08 else 0) ||| (if rl then 0x04 else 0) ||| x.setWidth 8)] }
      fresh := s.fresh + 1 }
    ∧ exec (.lcdWriteData b) s = .next { s with
      lcd := { s.lcd with addr := a'', taken := s.lcd.taken ++ [.byte true b] }
      fresh := s.fresh + 1 }

/-! ## Frames -/

/-- The requests that write no shadow and never fault leave every shadow, the timer, EXPQ, the fault
registers and the environment; UQ, BUSY and the trace alone may change. -/
def Obligations.FrameOfSendingRequests : Prop :=
  ∀ (i : Instr) (s t : State) (slot b : Byte) (bitmap : List Byte),
    i ∈ [.clear, .home, .scrollDisplayLeft, .scrollDisplayRight, .createChar slot bitmap, .write b,
      .command b] →
    exec i s = .next t →
    SameShadows s t ∧ SameTimer s t ∧ SameFault s t ∧ SameEnvironment s t

/-- A toggle leaves every shadow but its own register, DC or EM, the timer, EXPQ and the environment; it
changes either its register, the queue and BUSY, or the fault registers, never both. -/
def Obligations.FrameOfToggles : Prop :=
  ∀ (i : Instr) (s t : State), exec i s = .next t →
    (i ∈ [.display, .noDisplay, .cursor, .noCursor, .blink, .noBlink] →
      t.shv = s.shv ∧ t.fn = s.fn ∧ t.em = s.em ∧ t.rc = s.rc ∧ t.roff = s.roff
        ∧ SameTimer s t ∧ SameEnvironment s t
        ∧ (SameFault s t ∨ (t.dc = s.dc ∧ SameQueue s t)))
    ∧ (i ∈ [.leftToRight, .rightToLeft, .autoscroll, .noAutoscroll] →
      t.shv = s.shv ∧ t.fn = s.fn ∧ t.dc = s.dc ∧ t.rc = s.rc ∧ t.roff = s.roff
        ∧ SameTimer s t ∧ SameEnvironment s t
        ∧ (SameFault s t ∨ (t.em = s.em ∧ SameQueue s t)))

/-- BEGIN leaves the timer, EXPQ, the fault registers and the environment; SET_ROW_OFFSETS these and
every shadow but ROFF; SET_CURSOR these and every shadow, or the fault registers alone. -/
def Obligations.FrameOfGeometryRequests : Prop :=
  ∀ (s t : State) (cols rows o0 o1 o2 o3 col row : Byte) (size : CharSize),
    (exec (.begin cols rows size) s = .next t →
      SameTimer s t ∧ SameFault s t ∧ SameEnvironment s t)
    ∧ (exec (.setRowOffsets o0 o1 o2 o3) s = .next t →
      t.shv = s.shv ∧ t.fn = s.fn ∧ t.dc = s.dc ∧ t.em = s.em ∧ t.rc = s.rc
        ∧ SameTimer s t ∧ SameFault s t ∧ SameEnvironment s t)
    ∧ (exec (.setCursor col row) s = .next t →
      SameShadows s t ∧ SameTimer s t ∧ SameEnvironment s t
        ∧ (SameFault s t ∨ SameQueue s t))

/-- A word at the LCD leaves the whole block, the trace, the ports, the other clients and the expander:
the LCD and the free-value counter alone may change. -/
def Obligations.FrameOfLcdWords : Prop :=
  ∀ (i : Instr) (s t : State),
    ((∃ w, decodeLcd w = .ok i) ∨ ∃ w, decodeNibble w = .ok i) → exec i s = .next t →
    SameBlock s t ∧ SameInputs s t ∧ t.expander = s.expander

/-! ## The queue, the timer, the expander port -/

/-- 40_sequencer R422: the head ExpSet is presented on the port; while it is not acknowledged nothing
else happens; the first acknowledge performs it. That the levels of `exp_ack` are a list which a presented
cycle shortens by one is the model's choice (log entry 4). -/
def Obligations.ExpSetIsPresentedThenPerformed : Prop :=
  ∀ (s : State) (op : ExpOp) (rest : List MicroOp),
    s.cfg.valid = true → s.clients = [] → s.rst = false → s.busy = true → s.tmr = 0 →
    s.uq = .expSet op :: rest →
    (s.expq = none → step s = .next { s with expq := some op })
    ∧ (s.expq = some op →
      outExpValid s = true
      ∧ outExp s = some (BitVec.ofNat 3 op.line, op.level, decide (op.latch = .now))
      ∧ (s.expander.ackNow = false →
        step s = .next { s with
          expander := { s.expander with acks := s.expander.acks.tail } })
      ∧ (s.expander.ackNow = true →
        ∃ l k, step s = .next { s with
          expq := none
          uq := rest
          trace := s.trace ++ [.expSet op]
          expander := ({ s.expander with acks := s.expander.acks.tail } : Expander).setLevel op
          lcd := l
          fresh := k }))

/-- 60_exceptions R812: an expander that never acknowledges holds the block for ever, and so does a host
that presents nothing; nothing is raised. The model's choices: a host whose port is empty never presents
again (log entry 2), and a silent expander is an empty list of levels with 0 after it (log entry 4). -/
def Obligations.HoldsRaiseNothing : Prop :=
  ∀ s : State, s.cfg.valid = true → s.clients = [] → s.rst = false → s.tmr = 0 →
    (∀ (op : ExpOp) (rest : List MicroOp), s.busy = true → s.uq = .expSet op :: rest →
      s.expq = some op → s.expander.acks = [] → s.expander.ackRest = false →
      ∀ k, runCycles k s = .next s)
    ∧ (s.busy = false → s.host.valid = false → ∀ k, runCycles k s = .next s)

/-- 40_sequencer R423: a Wait is loaded, removed and emitted in one cycle; while the timer counts no
micro-operation is performed. -/
def Obligations.WaitLoadsTheTimer : Prop :=
  ∀ s : State, s.cfg.valid = true → s.clients = [] → s.rst = false → s.busy = true →
    (∀ (us : BitVec 16) (rest : List MicroOp), s.tmr = 0 → s.expq = none → s.uq = .wait us :: rest →
      step s = .next { s with
        tmr := us, pre := 0, uq := rest, trace := s.trace ++ [.wait us] })
    ∧ (s.tmr ≠ 0 → ∃ t, step s = .next t ∧ t.uq = s.uq ∧ t.expq = s.expq ∧ t.busy = true
        ∧ t.trace = s.trace)

/-- 40_sequencer R431: a loaded timer holds the sequencer for exactly `n * CYC_PER_US` cycles: after `k`
of them it has counted `k / CYC_PER_US` microseconds, and nothing but TMR and PRE has changed. -/
def Obligations.TimerHoldsExactly : Prop :=
  ∀ (s : State) (k : Nat),
    s.cfg.valid = true → s.clients = [] → s.rst = false → s.busy = true → s.pre = 0 →
    k ≤ s.tmr.toNat * s.cfg.cycPerUs →
    runCycles k s = .next { s with
      tmr := BitVec.ofNat 16 (s.tmr.toNat - k / s.cfg.cycPerUs)
      pre := k % s.cfg.cycPerUs }

/-- 40_sequencer R424, 10_state R126: Done drives `done` and `done_count`, empties the queue and clears
BUSY; an unfaulted block is ready from the next cycle. -/
def Obligations.DoneCompletesTheRequest : Prop :=
  ∀ (s : State) (c : Byte) (rest : List MicroOp),
    s.cfg.valid = true → s.clients = [] → s.rst = false → s.busy = true → s.tmr = 0 →
    s.expq = none → s.uq = .done c :: rest →
    outDone s = true ∧ outDoneCount s = some c
      ∧ ∃ t, step s = .next t
        ∧ t = { s with uq := [], busy := false, trace := s.trace ++ [.done c] }
        ∧ outDone t = false
        ∧ (s.fault = .none → outReqReady t = true)

/-- 40_sequencer R420 to R426, 70_reset_and_hazards R950, R940: with an expander that acknowledges at
once (k = 1), a loaded list is performed straight through, in order and in the cycles of R950, and ends
idle with its Done; every event is emitted once. The state is final when the host presents nothing
more. The model's choices: the host's port stays as it is until the block is ready (log entry 2), and the
expander that acknowledges at once is an empty list of levels with 1 after it (log entry 4). -/
def Obligations.LoadedListCompletesInOrder : Prop :=
  ∀ (s : State) (ops : List MicroOp) (c : Byte),
    s.cfg.valid = true → s.clients = [] → s.rst = false → s.busy = true → s.fault = .none →
    s.tmr = 0 → s.expq = none → s.expander.acks = [] → s.expander.ackRest = true →
    s.uq = ops ++ [.done c] → (∀ d, .done d ∉ ops) →
    ∃ t, runCycles (cyclesOf s.cfg.cycPerUs ops + 1) s = .next t
      ∧ t.busy = false ∧ t.uq = [] ∧ t.host = s.host ∧ (s.host.exhausted = true → t.final = true)
      ∧ t.trace = s.trace ++ eventsOf ops ++ [.done c]
      ∧ t.tmr = 0 ∧ t.expq = none ∧ SameShadows s t ∧ SameFault s t

/-- 10_state R125, 40_sequencer R427: a request is taken only on a cycle where the block is ready; until
then the port keeps it. That the host never withdraws or changes its word is the model's choice (log
entry 2). -/
def Obligations.PortIsHeldUntilReady : Prop :=
  ∀ s t : State, s.ready = false ∨ s.host.valid = false → step s = .next t → t.host = s.host

/-! ## Faults -/

/-- 60_exceptions R800 to R804, R810: FAULT changes only where an idle block accepts a request that the
table of R800 names, for the cause it names; then FAULT, FINFO and the event are all that the request
changes, and the block is not ready. -/
def Obligations.OnlyTheListedFaults : Prop :=
  ∀ s t : State, Inv s → s.rst = false → step s = .next t → t.fault ≠ s.fault →
    let op := (Request.byte 0 s.host.data).toNat
    s.ready = true ∧ s.host.valid = true
      ∧ ((t.fault = .illegalRequest ∧ 0x14 ≤ op)
        ∨ (t.fault = .notConfigured ∧ ((0x03 ≤ op ∧ op ≤ 0x0C) ∨ op = 0x10) ∧ s.shv = false)
        ∨ (t.fault = .rowOutOfTable ∧ op = 0x10 ∧ s.shv = true
          ∧ ∃ rc, s.rc = some rc
            ∧ (rc = 0 ∨ 4 ≤ (Request.byte 2 s.host.data).toNat % rc.toNat)))
      ∧ t.finfo = s.host.data ∧ t.trace = s.trace ++ [.fault t.fault]
      ∧ SameShadows s t ∧ SameQueue s t ∧ SameTimer s t ∧ outReqReady t = false

/-- 60_exceptions R811: a fault stays, with its request word, and the block is not ready and in no final
state, until `rst`, which returns the block to its reset state. -/
def Obligations.FaultIsStickyUntilReset : Prop :=
  ∀ s t : State, s.fault ≠ .none → step s = .next t →
    outReqReady s = false ∧ s.final = false
      ∧ (s.rst = false → t.fault = s.fault ∧ t.finfo = s.finfo)
      ∧ (s.rst = true → t.fault = .none ∧ SameShadows State.reset t ∧ SameQueue State.reset t
        ∧ SameTimer State.reset t)

/-! ## Invariants and whole-machine rules -/

/-- The invariant holds after reset. -/
def Obligations.InvariantAtReset : Prop := Inv State.reset

/-- 10_state R105 to R108, R112, R115 to R121, 20_memory R201, 60_exceptions R810, R816: every step keeps
the invariant. -/
def Obligations.InvariantKeptByEveryStep : Prop :=
  ∀ s t : State, Inv s → step s = .next t → Inv t

/-- 40_sequencer R425, 60_exceptions R804, R812: from a state with the invariant, whose other clients keep
off its lines, a step always has a next state: no micro-operation faults and nothing is stuck. -/
def Obligations.InvariantMeansTheNextStepExists : Prop :=
  ∀ s : State, Inv s → (∀ op, some op ∈ s.clients → op.line ∉ s.cfg.la.lines) →
    ∃ t, step s = .next t

/-- 10_state R108: no step sets a bit of a shadow outside its flags, from any legal shadows, reached or
not. -/
def Obligations.ShadowsStayLegal : Prop :=
  ∀ s t : State, shadowsLegal s = true → step s = .next t → shadowsLegal t = true

/-- 10_state R105, R110, R112, 70_reset_and_hazards R911: outside reset, only an accepted BEGIN changes
FN, RC or SHV, and it sets SHV. -/
def Obligations.OnlyBeginConfigures : Prop :=
  ∀ s t : State, s.rst = false → step s = .next t →
    (t.fn ≠ s.fn ∨ t.rc ≠ s.rc ∨ t.shv ≠ s.shv) →
    s.ready = true ∧ s.host.valid = true ∧ t.shv = true
      ∧ ∃ cols rows size, decode s.host.data = .ok (.begin cols rows size)

/-- 10_state R101, R102: no step changes the parameters. -/
def Obligations.ParametersNeverChange : Prop :=
  ∀ s t : State, step s = .next t → t.cfg = s.cfg

/-- 20_memory R201: the block presents no operation on a line outside its LineAssignment, and stages no
level there. -/
def Obligations.OtherLinesAreNeverStaged : Prop :=
  ∀ (s t : State) (j : Nat), Inv s → s.clients = [] → step s = .next t →
    (∀ op, t.expq = some op → op.line ∈ s.cfg.la.lines)
    ∧ (j ∉ s.cfg.la.lines → t.expander.staged.getLsbD j = s.expander.staged.getLsbD j)

/-- 10_state R128, 40_sequencer R426: the block has no read channel: two states with the same block and
the same inputs step to the same block and inputs, whatever the expander's lines, the LCD and the free
values hold. The model's choices: FINFO, unspecified after reset, is 0 there, so two blocks leave reset
with the same one (log entry 7), and what the inputs do next is the data of log entries 2 to 5. -/
def Obligations.BlockNeverLearnsFromTheLines : Prop :=
  ∀ s s' t t' : State, SameBlock s s' → SameInputs s s' → step s = .next t → step s' = .next t' →
    SameBlock t t' ∧ SameInputs t t'

/-- 40_sequencer R428: outside reset, a cycle is a silent step or one transition of the trace-level
relation. -/
def Obligations.CycleRefinesTheTraceRelation : Prop :=
  ∀ s t : State, Inv s → s.rst = false → step s = .next t →
    t.abs = s.abs ∨ ∃ l, traceStep s.abs l = some t.abs

/-! ## The lines and the LCD -/

/-- 20_memory R210: `setLevel` on a line of the expander. -/
def Obligations.SetLevelMeetsTheExpanderContract : Prop :=
  ∀ (e : Expander) (line : Nat) (level : Bool) (j : Nat), line < 8 → j < 8 →
    ((e.setLevel ⟨line, level, .defer⟩).staged.getLsbD j
        = if j = line then level else e.staged.getLsbD j)
    ∧ (e.setLevel ⟨line, level, .defer⟩).phys = e.phys
    ∧ ((e.setLevel ⟨line, level, .now⟩).staged.getLsbD j
        = if j = line then level else e.staged.getLsbD j)
    ∧ (e.setLevel ⟨line, level, .now⟩).phys = (e.setLevel ⟨line, level, .now⟩).staged

/-- 40_sequencer R406: the levels after each primitive, from any levels; nothing is left uncommitted. -/
def Obligations.LineLevelsAfterPrimitives : Prop :=
  ∀ (s : State) (v : Nibble) (b : Byte) (rs : Bool), s.cfg.la.valid = true →
    let la := s.cfg.la
    (∃ t, performAll (pulse la) s = .next t ∧ t.expander.phys.getLsbD la.en = false
      ∧ t.expander.phys = t.expander.staged)
    ∧ (∃ t, performAll (nib la v) s = .next t ∧ t.expander.phys.getLsbD la.en = false
      ∧ lineNibble la t.expander.phys = v ∧ t.expander.phys = t.expander.staged)
    ∧ ∃ t, performAll (send la b rs) s = .next t ∧ t.expander.phys.getLsbD la.en = false
      ∧ t.expander.phys.getLsbD la.rs = rs
      ∧ lineNibble la t.expander.phys = b.extractLsb' 0 4 ∧ t.expander.phys = t.expander.staged

/-- 40_sequencer R402, 20_memory R220, R221, R240, 30_encoding R320: a SEND to an LCD in 4-bit mode at a
nibble boundary delivers exactly its word `{rs, B}`: the LCD ends as if it had run that byte once. The
moment the LCD samples, and that it acts at once, is the model's choice (log entry 10). -/
def Obligations.SendDeliversExactlyItsWord : Prop :=
  ∀ (s : State) (b : Byte) (rs : Bool), s.cfg.la.valid = true → EnableSettled s →
    s.lcd.phase = .fourBit →
    ∃ t u, performAll (send s.cfg.la b rs) s = .next t ∧ lcdRun rs b s = .next u
      ∧ t.lcd = u.lcd ∧ t.fresh = u.fresh ∧ SameBlock s t ∧ EnableSettled t

/-- 20_memory R241, V5 of 95_test_vectors: operations of other clients on other lines, latch-now
included, before any of the micro-operations, change nothing of what the LCD takes. The moment the LCD
samples, and that it acts at once, is the model's choice (log entry 10). -/
def Obligations.OtherClientsCannotCorruptASend : Prop :=
  ∀ (s : State) (b : Byte) (rs : Bool) (gaps : List (List ExpOp)), s.cfg.la.valid = true →
    EnableSettled s → s.lcd.phase = .fourBit →
    (∀ gap ∈ gaps, ∀ op ∈ gap, op.line ∉ s.cfg.la.lines) →
    ∃ t u, performAllShared gaps (send s.cfg.la b rs) s = .next t ∧ lcdRun rs b s = .next u
      ∧ t.lcd = u.lcd ∧ t.fresh = u.fresh

/-- 41_initialization R513, R500, 10_state R104: from any levels of the lines and any state of the LCD,
performing a BEGIN leaves the LCD in 4-bit mode at a nibble boundary with its registers equal to the
shadows, and RS and E low. How the LCD takes nibbles, and its unwired lines in 8-bit mode, are the model's
choices (log entries 10 and 11). -/
def Obligations.BeginSynchronisesAnyLcd : Prop :=
  ∀ (s : State) (cols rows : Byte) (size : CharSize), s.cfg.valid = true →
    ∃ t u, exec (.begin cols rows size) s = .next t ∧ performAll t.uq t = .next u
      ∧ LcdInStep u ∧ EnableSettled u
      ∧ u.expander.phys.getLsbD s.cfg.la.rs = false
      ∧ u.expander.phys.getLsbD s.cfg.la.en = false

/-- 10_state R104: every request but COMMAND keeps the LCD's registers equal to the shadows. How the LCD
takes nibbles is the model's choice (log entry 10). -/
def Obligations.RequestsKeepShadowsTrue : Prop :=
  ∀ (s t u : State) (w : Request) (i : Instr), s.cfg.valid = true → EnableSettled s → LcdInStep s →
    shadowsLegal s = true → s.uq = [] → decode w = .ok i → (∀ b, i ≠ .command b) →
    exec i s = .next t → performAll t.uq t = .next u → LcdInStep u ∧ EnableSettled u

/-- 70_reset_and_hazards R930, 90_conflicts C6: a COMMAND with a display-control byte moves the LCD's
register and not the shadow. How the LCD takes nibbles is the model's choice (log entry 10). -/
def Obligations.CommandDriftsFromTheShadow : Prop :=
  ∀ (s : State) (v : Byte), s.cfg.valid = true → EnableSettled s → LcdInStep s → v &&& 0xF8 = 0 →
    ∃ t u, exec (.command (0x08 ||| v)) s = .next t ∧ performAll t.uq t = .next u
      ∧ u.lcd.dc = v ∧ u.dc = s.dc ∧ (LcdInStep u ↔ s.dc = some v)
end

