-- ==== Sys2Proof/Laws/Decode.lean ====
section
/-! SUPPORT. The bytes of a request word, and the fields of the LCD words. -/

namespace Sys2Proof

/-- Bit `j` of the word of a list of bytes is bit `j mod 8` of its byte `j / 8`. -/
theorem getLsbD_ofBytes (bs : List Byte) (j : Nat) (hj : j < 80) :
    (Request.ofBytes bs).getLsbD j = (bs.getD (j / 8) 0).getLsbD (j % 8) := by
  induction bs generalizing j with
  | nil => simp [Request.ofBytes]
  | cons b bs ih =>
    simp only [Request.ofBytes, BitVec.getLsbD_or, BitVec.getLsbD_shiftLeft, BitVec.getLsbD_setWidth]
    by_cases h : j < 8
    · have h1 : j / 8 = 0 := by omega
      have h2 : j % 8 = j := by omega
      simp [h, h1, h2, hj]
    · have h1 : j / 8 = (j - 8) / 8 + 1 := by omega
      have h2 : j % 8 = (j - 8) % 8 := by omega
      have h3 : b.getLsbD j = false := BitVec.getLsbD_of_ge b j (by omega)
      rw [ih (j - 8) (by omega)]
      simp [h, hj, h1, h2, h3]

/-- Byte `k` of the word of a list of bytes is the list's byte `k`, or 0 past its end. -/
theorem byte_ofBytes (bs : List Byte) (k : Nat) (hk : k < 10) :
    Request.byte k (Request.ofBytes bs) = bs.getD k 0 := by
  apply BitVec.eq_of_getLsbD_eq
  intro i hi
  have h1 : (8 * k + i) / 8 = k := by omega
  have h2 : (8 * k + i) % 8 = i := by omega
  rw [Request.byte, BitVec.getLsbD_extractLsb', getLsbD_ofBytes _ _ (by omega), h1, h2]
  simp [hi]

/-- The opcode byte selects the operation; what it is on a list of bytes. -/
theorem byte_zero_ofBytes_cons (b : Byte) (bs : List Byte) :
    Request.byte 0 (Request.ofBytes (b :: bs)) = b := by simp [byte_ofBytes]

/-- A word is rejected exactly when its opcode byte is unassigned. -/
theorem decode_error_iff (w : Request) :
    (∃ e, decode w = .error e) ↔ 0x14 ≤ (Request.byte 0 w).toNat := by
  constructor
  · rintro ⟨e, h⟩
    simp only [decode] at h
    split at h <;> (simp_all; try omega)
  · intro h
    refine ⟨.illegalRequest (Request.byte 0 w), ?_⟩
    simp only [decode]
    split <;> first | omega | rfl

/-- The error of a rejected word names its opcode byte. -/
theorem decode_error_eq {w : Request} {e : DecodeError} (h : decode w = .error e) :
    e = .illegalRequest (Request.byte 0 w) := by
  simp only [decode] at h
  split at h <;> simp_all

/-- `{RS, B}`: the register-select level of an LCD word. -/
@[simp] theorem LcdWord.of_rs (rs : Bool) (b : Byte) : (LcdWord.of rs b).getLsbD 8 = rs := by
  revert rs b; decide

/-- `{RS, B}`: the byte of an LCD word. -/
@[simp] theorem LcdWord.of_byte (rs : Bool) (b : Byte) : (LcdWord.of rs b).byte = b := by
  revert rs b; decide

end Sys2Proof
end

