-- ==== Sys2Proof/Laws/State.lean ====
section
/-! SUPPORT. Reading each field of the state after each named update: one lemma per field per update,
so that no proof unfolds a record update. -/

namespace Sys2Proof.Machine

variable (s : State)

/-! ## State.emit -/

@[simp] theorem State.emit_cfg (e : Event) : (s.emit e).cfg = s.cfg := rfl
@[simp] theorem State.emit_shv (e : Event) : (s.emit e).shv = s.shv := rfl
@[simp] theorem State.emit_fn (e : Event) : (s.emit e).fn = s.fn := rfl
@[simp] theorem State.emit_dc (e : Event) : (s.emit e).dc = s.dc := rfl
@[simp] theorem State.emit_em (e : Event) : (s.emit e).em = s.em := rfl
@[simp] theorem State.emit_rc (e : Event) : (s.emit e).rc = s.rc := rfl
@[simp] theorem State.emit_roff (e : Event) : (s.emit e).roff = s.roff := rfl
@[simp] theorem State.emit_busy (e : Event) : (s.emit e).busy = s.busy := rfl
@[simp] theorem State.emit_uq (e : Event) : (s.emit e).uq = s.uq := rfl
@[simp] theorem State.emit_tmr (e : Event) : (s.emit e).tmr = s.tmr := rfl
@[simp] theorem State.emit_pre (e : Event) : (s.emit e).pre = s.pre := rfl
@[simp] theorem State.emit_expq (e : Event) : (s.emit e).expq = s.expq := rfl
@[simp] theorem State.emit_fault (e : Event) : (s.emit e).fault = s.fault := rfl
@[simp] theorem State.emit_finfo (e : Event) : (s.emit e).finfo = s.finfo := rfl
@[simp] theorem State.emit_rst (e : Event) : (s.emit e).rst = s.rst := rfl
@[simp] theorem State.emit_host (e : Event) : (s.emit e).host = s.host := rfl
@[simp] theorem State.emit_clients (e : Event) : (s.emit e).clients = s.clients := rfl
@[simp] theorem State.emit_expander (e : Event) : (s.emit e).expander = s.expander := rfl
@[simp] theorem State.emit_lcd (e : Event) : (s.emit e).lcd = s.lcd := rfl
@[simp] theorem State.emit_trace (e : Event) : (s.emit e).trace = s.trace ++ [e] := rfl
@[simp] theorem State.emit_fresh (e : Event) : (s.emit e).fresh = s.fresh := rfl

/-! ## State.setDc -/

@[simp] theorem State.setDc_cfg (v : Byte) : (s.setDc v).cfg = s.cfg := rfl
@[simp] theorem State.setDc_shv (v : Byte) : (s.setDc v).shv = s.shv := rfl
@[simp] theorem State.setDc_fn (v : Byte) : (s.setDc v).fn = s.fn := rfl
@[simp] theorem State.setDc_dc (v : Byte) : (s.setDc v).dc = some v := rfl
@[simp] theorem State.setDc_em (v : Byte) : (s.setDc v).em = s.em := rfl
@[simp] theorem State.setDc_rc (v : Byte) : (s.setDc v).rc = s.rc := rfl
@[simp] theorem State.setDc_roff (v : Byte) : (s.setDc v).roff = s.roff := rfl
@[simp] theorem State.setDc_busy (v : Byte) : (s.setDc v).busy = s.busy := rfl
@[simp] theorem State.setDc_uq (v : Byte) : (s.setDc v).uq = s.uq := rfl
@[simp] theorem State.setDc_tmr (v : Byte) : (s.setDc v).tmr = s.tmr := rfl
@[simp] theorem State.setDc_pre (v : Byte) : (s.setDc v).pre = s.pre := rfl
@[simp] theorem State.setDc_expq (v : Byte) : (s.setDc v).expq = s.expq := rfl
@[simp] theorem State.setDc_fault (v : Byte) : (s.setDc v).fault = s.fault := rfl
@[simp] theorem State.setDc_finfo (v : Byte) : (s.setDc v).finfo = s.finfo := rfl
@[simp] theorem State.setDc_rst (v : Byte) : (s.setDc v).rst = s.rst := rfl
@[simp] theorem State.setDc_host (v : Byte) : (s.setDc v).host = s.host := rfl
@[simp] theorem State.setDc_clients (v : Byte) : (s.setDc v).clients = s.clients := rfl
@[simp] theorem State.setDc_expander (v : Byte) : (s.setDc v).expander = s.expander := rfl
@[simp] theorem State.setDc_lcd (v : Byte) : (s.setDc v).lcd = s.lcd := rfl
@[simp] theorem State.setDc_trace (v : Byte) : (s.setDc v).trace = s.trace := rfl
@[simp] theorem State.setDc_fresh (v : Byte) : (s.setDc v).fresh = s.fresh := rfl

/-! ## State.setEm -/

@[simp] theorem State.setEm_cfg (v : Byte) : (s.setEm v).cfg = s.cfg := rfl
@[simp] theorem State.setEm_shv (v : Byte) : (s.setEm v).shv = s.shv := rfl
@[simp] theorem State.setEm_fn (v : Byte) : (s.setEm v).fn = s.fn := rfl
@[simp] theorem State.setEm_dc (v : Byte) : (s.setEm v).dc = s.dc := rfl
@[simp] theorem State.setEm_em (v : Byte) : (s.setEm v).em = some v := rfl
@[simp] theorem State.setEm_rc (v : Byte) : (s.setEm v).rc = s.rc := rfl
@[simp] theorem State.setEm_roff (v : Byte) : (s.setEm v).roff = s.roff := rfl
@[simp] theorem State.setEm_busy (v : Byte) : (s.setEm v).busy = s.busy := rfl
@[simp] theorem State.setEm_uq (v : Byte) : (s.setEm v).uq = s.uq := rfl
@[simp] theorem State.setEm_tmr (v : Byte) : (s.setEm v).tmr = s.tmr := rfl
@[simp] theorem State.setEm_pre (v : Byte) : (s.setEm v).pre = s.pre := rfl
@[simp] theorem State.setEm_expq (v : Byte) : (s.setEm v).expq = s.expq := rfl
@[simp] theorem State.setEm_fault (v : Byte) : (s.setEm v).fault = s.fault := rfl
@[simp] theorem State.setEm_finfo (v : Byte) : (s.setEm v).finfo = s.finfo := rfl
@[simp] theorem State.setEm_rst (v : Byte) : (s.setEm v).rst = s.rst := rfl
@[simp] theorem State.setEm_host (v : Byte) : (s.setEm v).host = s.host := rfl
@[simp] theorem State.setEm_clients (v : Byte) : (s.setEm v).clients = s.clients := rfl
@[simp] theorem State.setEm_expander (v : Byte) : (s.setEm v).expander = s.expander := rfl
@[simp] theorem State.setEm_lcd (v : Byte) : (s.setEm v).lcd = s.lcd := rfl
@[simp] theorem State.setEm_trace (v : Byte) : (s.setEm v).trace = s.trace := rfl
@[simp] theorem State.setEm_fresh (v : Byte) : (s.setEm v).fresh = s.fresh := rfl

/-! ## State.setRoff -/

@[simp] theorem State.setRoff_cfg (t : RowOffsets) : (s.setRoff t).cfg = s.cfg := rfl
@[simp] theorem State.setRoff_shv (t : RowOffsets) : (s.setRoff t).shv = s.shv := rfl
@[simp] theorem State.setRoff_fn (t : RowOffsets) : (s.setRoff t).fn = s.fn := rfl
@[simp] theorem State.setRoff_dc (t : RowOffsets) : (s.setRoff t).dc = s.dc := rfl
@[simp] theorem State.setRoff_em (t : RowOffsets) : (s.setRoff t).em = s.em := rfl
@[simp] theorem State.setRoff_rc (t : RowOffsets) : (s.setRoff t).rc = s.rc := rfl
@[simp] theorem State.setRoff_roff (t : RowOffsets) : (s.setRoff t).roff = some t := rfl
@[simp] theorem State.setRoff_busy (t : RowOffsets) : (s.setRoff t).busy = s.busy := rfl
@[simp] theorem State.setRoff_uq (t : RowOffsets) : (s.setRoff t).uq = s.uq := rfl
@[simp] theorem State.setRoff_tmr (t : RowOffsets) : (s.setRoff t).tmr = s.tmr := rfl
@[simp] theorem State.setRoff_pre (t : RowOffsets) : (s.setRoff t).pre = s.pre := rfl
@[simp] theorem State.setRoff_expq (t : RowOffsets) : (s.setRoff t).expq = s.expq := rfl
@[simp] theorem State.setRoff_fault (t : RowOffsets) : (s.setRoff t).fault = s.fault := rfl
@[simp] theorem State.setRoff_finfo (t : RowOffsets) : (s.setRoff t).finfo = s.finfo := rfl
@[simp] theorem State.setRoff_rst (t : RowOffsets) : (s.setRoff t).rst = s.rst := rfl
@[simp] theorem State.setRoff_host (t : RowOffsets) : (s.setRoff t).host = s.host := rfl
@[simp] theorem State.setRoff_clients (t : RowOffsets) : (s.setRoff t).clients = s.clients := rfl
@[simp] theorem State.setRoff_expander (t : RowOffsets) : (s.setRoff t).expander = s.expander := rfl
@[simp] theorem State.setRoff_lcd (t : RowOffsets) : (s.setRoff t).lcd = s.lcd := rfl
@[simp] theorem State.setRoff_trace (t : RowOffsets) : (s.setRoff t).trace = s.trace := rfl
@[simp] theorem State.setRoff_fresh (t : RowOffsets) : (s.setRoff t).fresh = s.fresh := rfl

/-! ## State.configure -/

@[simp] theorem State.configure_cfg (fn dc em rc : Byte) (t : RowOffsets) : (s.configure fn dc em rc t).cfg = s.cfg := rfl
@[simp] theorem State.configure_shv (fn dc em rc : Byte) (t : RowOffsets) : (s.configure fn dc em rc t).shv = true := rfl
@[simp] theorem State.configure_fn (fn dc em rc : Byte) (t : RowOffsets) : (s.configure fn dc em rc t).fn = some fn := rfl
@[simp] theorem State.configure_dc (fn dc em rc : Byte) (t : RowOffsets) : (s.configure fn dc em rc t).dc = some dc := rfl
@[simp] theorem State.configure_em (fn dc em rc : Byte) (t : RowOffsets) : (s.configure fn dc em rc t).em = some em := rfl
@[simp] theorem State.configure_rc (fn dc em rc : Byte) (t : RowOffsets) : (s.configure fn dc em rc t).rc = some rc := rfl
@[simp] theorem State.configure_roff (fn dc em rc : Byte) (t : RowOffsets) : (s.configure fn dc em rc t).roff = some t := rfl
@[simp] theorem State.configure_busy (fn dc em rc : Byte) (t : RowOffsets) : (s.configure fn dc em rc t).busy = s.busy := rfl
@[simp] theorem State.configure_uq (fn dc em rc : Byte) (t : RowOffsets) : (s.configure fn dc em rc t).uq = s.uq := rfl
@[simp] theorem State.configure_tmr (fn dc em rc : Byte) (t : RowOffsets) : (s.configure fn dc em rc t).tmr = s.tmr := rfl
@[simp] theorem State.configure_pre (fn dc em rc : Byte) (t : RowOffsets) : (s.configure fn dc em rc t).pre = s.pre := rfl
@[simp] theorem State.configure_expq (fn dc em rc : Byte) (t : RowOffsets) : (s.configure fn dc em rc t).expq = s.expq := rfl
@[simp] theorem State.configure_fault (fn dc em rc : Byte) (t : RowOffsets) : (s.configure fn dc em rc t).fault = s.fault := rfl
@[simp] theorem State.configure_finfo (fn dc em rc : Byte) (t : RowOffsets) : (s.configure fn dc em rc t).finfo = s.finfo := rfl
@[simp] theorem State.configure_rst (fn dc em rc : Byte) (t : RowOffsets) : (s.configure fn dc em rc t).rst = s.rst := rfl
@[simp] theorem State.configure_host (fn dc em rc : Byte) (t : RowOffsets) : (s.configure fn dc em rc t).host = s.host := rfl
@[simp] theorem State.configure_clients (fn dc em rc : Byte) (t : RowOffsets) : (s.configure fn dc em rc t).clients = s.clients := rfl
@[simp] theorem State.configure_expander (fn dc em rc : Byte) (t : RowOffsets) : (s.configure fn dc em rc t).expander = s.expander := rfl
@[simp] theorem State.configure_lcd (fn dc em rc : Byte) (t : RowOffsets) : (s.configure fn dc em rc t).lcd = s.lcd := rfl
@[simp] theorem State.configure_trace (fn dc em rc : Byte) (t : RowOffsets) : (s.configure fn dc em rc t).trace = s.trace := rfl
@[simp] theorem State.configure_fresh (fn dc em rc : Byte) (t : RowOffsets) : (s.configure fn dc em rc t).fresh = s.fresh := rfl

/-! ## State.load -/

@[simp] theorem State.load_cfg (ops : List MicroOp) (c : Byte) : (s.load ops c).cfg = s.cfg := rfl
@[simp] theorem State.load_shv (ops : List MicroOp) (c : Byte) : (s.load ops c).shv = s.shv := rfl
@[simp] theorem State.load_fn (ops : List MicroOp) (c : Byte) : (s.load ops c).fn = s.fn := rfl
@[simp] theorem State.load_dc (ops : List MicroOp) (c : Byte) : (s.load ops c).dc = s.dc := rfl
@[simp] theorem State.load_em (ops : List MicroOp) (c : Byte) : (s.load ops c).em = s.em := rfl
@[simp] theorem State.load_rc (ops : List MicroOp) (c : Byte) : (s.load ops c).rc = s.rc := rfl
@[simp] theorem State.load_roff (ops : List MicroOp) (c : Byte) : (s.load ops c).roff = s.roff := rfl
@[simp] theorem State.load_busy (ops : List MicroOp) (c : Byte) : (s.load ops c).busy = true := rfl
@[simp] theorem State.load_uq (ops : List MicroOp) (c : Byte) : (s.load ops c).uq = ops ++ [.done c] := rfl
@[simp] theorem State.load_tmr (ops : List MicroOp) (c : Byte) : (s.load ops c).tmr = s.tmr := rfl
@[simp] theorem State.load_pre (ops : List MicroOp) (c : Byte) : (s.load ops c).pre = s.pre := rfl
@[simp] theorem State.load_expq (ops : List MicroOp) (c : Byte) : (s.load ops c).expq = s.expq := rfl
@[simp] theorem State.load_fault (ops : List MicroOp) (c : Byte) : (s.load ops c).fault = s.fault := rfl
@[simp] theorem State.load_finfo (ops : List MicroOp) (c : Byte) : (s.load ops c).finfo = s.finfo := rfl
@[simp] theorem State.load_rst (ops : List MicroOp) (c : Byte) : (s.load ops c).rst = s.rst := rfl
@[simp] theorem State.load_host (ops : List MicroOp) (c : Byte) : (s.load ops c).host = s.host := rfl
@[simp] theorem State.load_clients (ops : List MicroOp) (c : Byte) : (s.load ops c).clients = s.clients := rfl
@[simp] theorem State.load_expander (ops : List MicroOp) (c : Byte) : (s.load ops c).expander = s.expander := rfl
@[simp] theorem State.load_lcd (ops : List MicroOp) (c : Byte) : (s.load ops c).lcd = s.lcd := rfl
@[simp] theorem State.load_trace (ops : List MicroOp) (c : Byte) : (s.load ops c).trace = s.trace := rfl
@[simp] theorem State.load_fresh (ops : List MicroOp) (c : Byte) : (s.load ops c).fresh = s.fresh := rfl

/-! ## State.enterFault -/

@[simp] theorem State.enterFault_cfg (c : FaultCode) : (s.enterFault c).cfg = s.cfg := rfl
@[simp] theorem State.enterFault_shv (c : FaultCode) : (s.enterFault c).shv = s.shv := rfl
@[simp] theorem State.enterFault_fn (c : FaultCode) : (s.enterFault c).fn = s.fn := rfl
@[simp] theorem State.enterFault_dc (c : FaultCode) : (s.enterFault c).dc = s.dc := rfl
@[simp] theorem State.enterFault_em (c : FaultCode) : (s.enterFault c).em = s.em := rfl
@[simp] theorem State.enterFault_rc (c : FaultCode) : (s.enterFault c).rc = s.rc := rfl
@[simp] theorem State.enterFault_roff (c : FaultCode) : (s.enterFault c).roff = s.roff := rfl
@[simp] theorem State.enterFault_busy (c : FaultCode) : (s.enterFault c).busy = s.busy := rfl
@[simp] theorem State.enterFault_uq (c : FaultCode) : (s.enterFault c).uq = s.uq := rfl
@[simp] theorem State.enterFault_tmr (c : FaultCode) : (s.enterFault c).tmr = s.tmr := rfl
@[simp] theorem State.enterFault_pre (c : FaultCode) : (s.enterFault c).pre = s.pre := rfl
@[simp] theorem State.enterFault_expq (c : FaultCode) : (s.enterFault c).expq = s.expq := rfl
@[simp] theorem State.enterFault_fault (c : FaultCode) : (s.enterFault c).fault = c := rfl
@[simp] theorem State.enterFault_finfo (c : FaultCode) : (s.enterFault c).finfo = s.host.data := rfl
@[simp] theorem State.enterFault_rst (c : FaultCode) : (s.enterFault c).rst = s.rst := rfl
@[simp] theorem State.enterFault_host (c : FaultCode) : (s.enterFault c).host = s.host := rfl
@[simp] theorem State.enterFault_clients (c : FaultCode) : (s.enterFault c).clients = s.clients := rfl
@[simp] theorem State.enterFault_expander (c : FaultCode) : (s.enterFault c).expander = s.expander := rfl
@[simp] theorem State.enterFault_lcd (c : FaultCode) : (s.enterFault c).lcd = s.lcd := rfl
@[simp] theorem State.enterFault_trace (c : FaultCode) : (s.enterFault c).trace = s.trace := rfl
@[simp] theorem State.enterFault_fresh (c : FaultCode) : (s.enterFault c).fresh = s.fresh := rfl

/-! ## State.releasePort -/

@[simp] theorem State.releasePort_cfg : s.releasePort.cfg = s.cfg := rfl
@[simp] theorem State.releasePort_shv : s.releasePort.shv = s.shv := rfl
@[simp] theorem State.releasePort_fn : s.releasePort.fn = s.fn := rfl
@[simp] theorem State.releasePort_dc : s.releasePort.dc = s.dc := rfl
@[simp] theorem State.releasePort_em : s.releasePort.em = s.em := rfl
@[simp] theorem State.releasePort_rc : s.releasePort.rc = s.rc := rfl
@[simp] theorem State.releasePort_roff : s.releasePort.roff = s.roff := rfl
@[simp] theorem State.releasePort_busy : s.releasePort.busy = s.busy := rfl
@[simp] theorem State.releasePort_uq : s.releasePort.uq = s.uq := rfl
@[simp] theorem State.releasePort_tmr : s.releasePort.tmr = s.tmr := rfl
@[simp] theorem State.releasePort_pre : s.releasePort.pre = s.pre := rfl
@[simp] theorem State.releasePort_expq : s.releasePort.expq = s.expq := rfl
@[simp] theorem State.releasePort_fault : s.releasePort.fault = s.fault := rfl
@[simp] theorem State.releasePort_finfo : s.releasePort.finfo = s.finfo := rfl
@[simp] theorem State.releasePort_rst : s.releasePort.rst = s.rst := rfl
@[simp] theorem State.releasePort_clients : s.releasePort.clients = s.clients := rfl
@[simp] theorem State.releasePort_expander : s.releasePort.expander = s.expander := rfl
@[simp] theorem State.releasePort_lcd : s.releasePort.lcd = s.lcd := rfl
@[simp] theorem State.releasePort_trace : s.releasePort.trace = s.trace := rfl
@[simp] theorem State.releasePort_fresh : s.releasePort.fresh = s.fresh := rfl

/-! ## State.tick -/

@[simp] theorem State.tick_cfg : s.tick.cfg = s.cfg := by unfold State.tick; split <;> rfl
@[simp] theorem State.tick_shv : s.tick.shv = s.shv := by unfold State.tick; split <;> rfl
@[simp] theorem State.tick_fn : s.tick.fn = s.fn := by unfold State.tick; split <;> rfl
@[simp] theorem State.tick_dc : s.tick.dc = s.dc := by unfold State.tick; split <;> rfl
@[simp] theorem State.tick_em : s.tick.em = s.em := by unfold State.tick; split <;> rfl
@[simp] theorem State.tick_rc : s.tick.rc = s.rc := by unfold State.tick; split <;> rfl
@[simp] theorem State.tick_roff : s.tick.roff = s.roff := by unfold State.tick; split <;> rfl
@[simp] theorem State.tick_busy : s.tick.busy = s.busy := by unfold State.tick; split <;> rfl
@[simp] theorem State.tick_uq : s.tick.uq = s.uq := by unfold State.tick; split <;> rfl
@[simp] theorem State.tick_expq : s.tick.expq = s.expq := by unfold State.tick; split <;> rfl
@[simp] theorem State.tick_fault : s.tick.fault = s.fault := by unfold State.tick; split <;> rfl
@[simp] theorem State.tick_finfo : s.tick.finfo = s.finfo := by unfold State.tick; split <;> rfl
@[simp] theorem State.tick_rst : s.tick.rst = s.rst := by unfold State.tick; split <;> rfl
@[simp] theorem State.tick_host : s.tick.host = s.host := by unfold State.tick; split <;> rfl
@[simp] theorem State.tick_clients : s.tick.clients = s.clients := by unfold State.tick; split <;> rfl
@[simp] theorem State.tick_expander : s.tick.expander = s.expander := by unfold State.tick; split <;> rfl
@[simp] theorem State.tick_lcd : s.tick.lcd = s.lcd := by unfold State.tick; split <;> rfl
@[simp] theorem State.tick_trace : s.tick.trace = s.trace := by unfold State.tick; split <;> rfl
@[simp] theorem State.tick_fresh : s.tick.fresh = s.fresh := by unfold State.tick; split <;> rfl

/-! ## State.startWait -/

@[simp] theorem State.startWait_cfg (us : BitVec 16) : (s.startWait us).cfg = s.cfg := rfl
@[simp] theorem State.startWait_shv (us : BitVec 16) : (s.startWait us).shv = s.shv := rfl
@[simp] theorem State.startWait_fn (us : BitVec 16) : (s.startWait us).fn = s.fn := rfl
@[simp] theorem State.startWait_dc (us : BitVec 16) : (s.startWait us).dc = s.dc := rfl
@[simp] theorem State.startWait_em (us : BitVec 16) : (s.startWait us).em = s.em := rfl
@[simp] theorem State.startWait_rc (us : BitVec 16) : (s.startWait us).rc = s.rc := rfl
@[simp] theorem State.startWait_roff (us : BitVec 16) : (s.startWait us).roff = s.roff := rfl
@[simp] theorem State.startWait_busy (us : BitVec 16) : (s.startWait us).busy = s.busy := rfl
@[simp] theorem State.startWait_uq (us : BitVec 16) : (s.startWait us).uq = s.uq.tail := rfl
@[simp] theorem State.startWait_tmr (us : BitVec 16) : (s.startWait us).tmr = us := rfl
@[simp] theorem State.startWait_pre (us : BitVec 16) : (s.startWait us).pre = 0 := rfl
@[simp] theorem State.startWait_expq (us : BitVec 16) : (s.startWait us).expq = s.expq := rfl
@[simp] theorem State.startWait_fault (us : BitVec 16) : (s.startWait us).fault = s.fault := rfl
@[simp] theorem State.startWait_finfo (us : BitVec 16) : (s.startWait us).finfo = s.finfo := rfl
@[simp] theorem State.startWait_rst (us : BitVec 16) : (s.startWait us).rst = s.rst := rfl
@[simp] theorem State.startWait_host (us : BitVec 16) : (s.startWait us).host = s.host := rfl
@[simp] theorem State.startWait_clients (us : BitVec 16) : (s.startWait us).clients = s.clients := rfl
@[simp] theorem State.startWait_expander (us : BitVec 16) : (s.startWait us).expander = s.expander := rfl
@[simp] theorem State.startWait_lcd (us : BitVec 16) : (s.startWait us).lcd = s.lcd := rfl
@[simp] theorem State.startWait_trace (us : BitVec 16) : (s.startWait us).trace = s.trace := rfl
@[simp] theorem State.startWait_fresh (us : BitVec 16) : (s.startWait us).fresh = s.fresh := rfl

/-! ## State.present -/

@[simp] theorem State.present_cfg (op : ExpOp) : (s.present op).cfg = s.cfg := rfl
@[simp] theorem State.present_shv (op : ExpOp) : (s.present op).shv = s.shv := rfl
@[simp] theorem State.present_fn (op : ExpOp) : (s.present op).fn = s.fn := rfl
@[simp] theorem State.present_dc (op : ExpOp) : (s.present op).dc = s.dc := rfl
@[simp] theorem State.present_em (op : ExpOp) : (s.present op).em = s.em := rfl
@[simp] theorem State.present_rc (op : ExpOp) : (s.present op).rc = s.rc := rfl
@[simp] theorem State.present_roff (op : ExpOp) : (s.present op).roff = s.roff := rfl
@[simp] theorem State.present_busy (op : ExpOp) : (s.present op).busy = s.busy := rfl
@[simp] theorem State.present_uq (op : ExpOp) : (s.present op).uq = s.uq := rfl
@[simp] theorem State.present_tmr (op : ExpOp) : (s.present op).tmr = s.tmr := rfl
@[simp] theorem State.present_pre (op : ExpOp) : (s.present op).pre = s.pre := rfl
@[simp] theorem State.present_expq (op : ExpOp) : (s.present op).expq = some op := rfl
@[simp] theorem State.present_fault (op : ExpOp) : (s.present op).fault = s.fault := rfl
@[simp] theorem State.present_finfo (op : ExpOp) : (s.present op).finfo = s.finfo := rfl
@[simp] theorem State.present_rst (op : ExpOp) : (s.present op).rst = s.rst := rfl
@[simp] theorem State.present_host (op : ExpOp) : (s.present op).host = s.host := rfl
@[simp] theorem State.present_clients (op : ExpOp) : (s.present op).clients = s.clients := rfl
@[simp] theorem State.present_expander (op : ExpOp) : (s.present op).expander = s.expander := rfl
@[simp] theorem State.present_lcd (op : ExpOp) : (s.present op).lcd = s.lcd := rfl
@[simp] theorem State.present_trace (op : ExpOp) : (s.present op).trace = s.trace := rfl
@[simp] theorem State.present_fresh (op : ExpOp) : (s.present op).fresh = s.fresh := rfl

/-! ## State.finishSet -/

@[simp] theorem State.finishSet_cfg : s.finishSet.cfg = s.cfg := rfl
@[simp] theorem State.finishSet_shv : s.finishSet.shv = s.shv := rfl
@[simp] theorem State.finishSet_fn : s.finishSet.fn = s.fn := rfl
@[simp] theorem State.finishSet_dc : s.finishSet.dc = s.dc := rfl
@[simp] theorem State.finishSet_em : s.finishSet.em = s.em := rfl
@[simp] theorem State.finishSet_rc : s.finishSet.rc = s.rc := rfl
@[simp] theorem State.finishSet_roff : s.finishSet.roff = s.roff := rfl
@[simp] theorem State.finishSet_busy : s.finishSet.busy = s.busy := rfl
@[simp] theorem State.finishSet_uq : s.finishSet.uq = s.uq.tail := rfl
@[simp] theorem State.finishSet_tmr : s.finishSet.tmr = s.tmr := rfl
@[simp] theorem State.finishSet_pre : s.finishSet.pre = s.pre := rfl
@[simp] theorem State.finishSet_expq : s.finishSet.expq = none := rfl
@[simp] theorem State.finishSet_fault : s.finishSet.fault = s.fault := rfl
@[simp] theorem State.finishSet_finfo : s.finishSet.finfo = s.finfo := rfl
@[simp] theorem State.finishSet_rst : s.finishSet.rst = s.rst := rfl
@[simp] theorem State.finishSet_host : s.finishSet.host = s.host := rfl
@[simp] theorem State.finishSet_clients : s.finishSet.clients = s.clients := rfl
@[simp] theorem State.finishSet_expander : s.finishSet.expander = s.expander := rfl
@[simp] theorem State.finishSet_lcd : s.finishSet.lcd = s.lcd := rfl
@[simp] theorem State.finishSet_trace : s.finishSet.trace = s.trace := rfl
@[simp] theorem State.finishSet_fresh : s.finishSet.fresh = s.fresh := rfl

/-! ## State.finish -/

@[simp] theorem State.finish_cfg : s.finish.cfg = s.cfg := rfl
@[simp] theorem State.finish_shv : s.finish.shv = s.shv := rfl
@[simp] theorem State.finish_fn : s.finish.fn = s.fn := rfl
@[simp] theorem State.finish_dc : s.finish.dc = s.dc := rfl
@[simp] theorem State.finish_em : s.finish.em = s.em := rfl
@[simp] theorem State.finish_rc : s.finish.rc = s.rc := rfl
@[simp] theorem State.finish_roff : s.finish.roff = s.roff := rfl
@[simp] theorem State.finish_busy : s.finish.busy = false := rfl
@[simp] theorem State.finish_uq : s.finish.uq = [] := rfl
@[simp] theorem State.finish_tmr : s.finish.tmr = s.tmr := rfl
@[simp] theorem State.finish_pre : s.finish.pre = s.pre := rfl
@[simp] theorem State.finish_expq : s.finish.expq = s.expq := rfl
@[simp] theorem State.finish_fault : s.finish.fault = s.fault := rfl
@[simp] theorem State.finish_finfo : s.finish.finfo = s.finfo := rfl
@[simp] theorem State.finish_rst : s.finish.rst = s.rst := rfl
@[simp] theorem State.finish_host : s.finish.host = s.host := rfl
@[simp] theorem State.finish_clients : s.finish.clients = s.clients := rfl
@[simp] theorem State.finish_expander : s.finish.expander = s.expander := rfl
@[simp] theorem State.finish_lcd : s.finish.lcd = s.lcd := rfl
@[simp] theorem State.finish_trace : s.finish.trace = s.trace := rfl
@[simp] theorem State.finish_fresh : s.finish.fresh = s.fresh := rfl

/-! ## State.withExpander -/

@[simp] theorem State.withExpander_cfg (e : Expander) : (s.withExpander e).cfg = s.cfg := rfl
@[simp] theorem State.withExpander_shv (e : Expander) : (s.withExpander e).shv = s.shv := rfl
@[simp] theorem State.withExpander_fn (e : Expander) : (s.withExpander e).fn = s.fn := rfl
@[simp] theorem State.withExpander_dc (e : Expander) : (s.withExpander e).dc = s.dc := rfl
@[simp] theorem State.withExpander_em (e : Expander) : (s.withExpander e).em = s.em := rfl
@[simp] theorem State.withExpander_rc (e : Expander) : (s.withExpander e).rc = s.rc := rfl
@[simp] theorem State.withExpander_roff (e : Expander) : (s.withExpander e).roff = s.roff := rfl
@[simp] theorem State.withExpander_busy (e : Expander) : (s.withExpander e).busy = s.busy := rfl
@[simp] theorem State.withExpander_uq (e : Expander) : (s.withExpander e).uq = s.uq := rfl
@[simp] theorem State.withExpander_tmr (e : Expander) : (s.withExpander e).tmr = s.tmr := rfl
@[simp] theorem State.withExpander_pre (e : Expander) : (s.withExpander e).pre = s.pre := rfl
@[simp] theorem State.withExpander_expq (e : Expander) : (s.withExpander e).expq = s.expq := rfl
@[simp] theorem State.withExpander_fault (e : Expander) : (s.withExpander e).fault = s.fault := rfl
@[simp] theorem State.withExpander_finfo (e : Expander) : (s.withExpander e).finfo = s.finfo := rfl
@[simp] theorem State.withExpander_rst (e : Expander) : (s.withExpander e).rst = s.rst := rfl
@[simp] theorem State.withExpander_host (e : Expander) : (s.withExpander e).host = s.host := rfl
@[simp] theorem State.withExpander_clients (e : Expander) : (s.withExpander e).clients = s.clients := rfl
@[simp] theorem State.withExpander_expander (e : Expander) : (s.withExpander e).expander = e := rfl
@[simp] theorem State.withExpander_lcd (e : Expander) : (s.withExpander e).lcd = s.lcd := rfl
@[simp] theorem State.withExpander_trace (e : Expander) : (s.withExpander e).trace = s.trace := rfl
@[simp] theorem State.withExpander_fresh (e : Expander) : (s.withExpander e).fresh = s.fresh := rfl

/-! ## State.popAck -/

@[simp] theorem State.popAck_cfg : s.popAck.cfg = s.cfg := rfl
@[simp] theorem State.popAck_shv : s.popAck.shv = s.shv := rfl
@[simp] theorem State.popAck_fn : s.popAck.fn = s.fn := rfl
@[simp] theorem State.popAck_dc : s.popAck.dc = s.dc := rfl
@[simp] theorem State.popAck_em : s.popAck.em = s.em := rfl
@[simp] theorem State.popAck_rc : s.popAck.rc = s.rc := rfl
@[simp] theorem State.popAck_roff : s.popAck.roff = s.roff := rfl
@[simp] theorem State.popAck_busy : s.popAck.busy = s.busy := rfl
@[simp] theorem State.popAck_uq : s.popAck.uq = s.uq := rfl
@[simp] theorem State.popAck_tmr : s.popAck.tmr = s.tmr := rfl
@[simp] theorem State.popAck_pre : s.popAck.pre = s.pre := rfl
@[simp] theorem State.popAck_expq : s.popAck.expq = s.expq := rfl
@[simp] theorem State.popAck_fault : s.popAck.fault = s.fault := rfl
@[simp] theorem State.popAck_finfo : s.popAck.finfo = s.finfo := rfl
@[simp] theorem State.popAck_rst : s.popAck.rst = s.rst := rfl
@[simp] theorem State.popAck_host : s.popAck.host = s.host := rfl
@[simp] theorem State.popAck_clients : s.popAck.clients = s.clients := rfl
@[simp] theorem State.popAck_expander : s.popAck.expander = s.expander.popAck := rfl
@[simp] theorem State.popAck_lcd : s.popAck.lcd = s.lcd := rfl
@[simp] theorem State.popAck_trace : s.popAck.trace = s.trace := rfl
@[simp] theorem State.popAck_fresh : s.popAck.fresh = s.fresh := rfl

/-! ## State.popClient -/

@[simp] theorem State.popClient_cfg : s.popClient.cfg = s.cfg := rfl
@[simp] theorem State.popClient_shv : s.popClient.shv = s.shv := rfl
@[simp] theorem State.popClient_fn : s.popClient.fn = s.fn := rfl
@[simp] theorem State.popClient_dc : s.popClient.dc = s.dc := rfl
@[simp] theorem State.popClient_em : s.popClient.em = s.em := rfl
@[simp] theorem State.popClient_rc : s.popClient.rc = s.rc := rfl
@[simp] theorem State.popClient_roff : s.popClient.roff = s.roff := rfl
@[simp] theorem State.popClient_busy : s.popClient.busy = s.busy := rfl
@[simp] theorem State.popClient_uq : s.popClient.uq = s.uq := rfl
@[simp] theorem State.popClient_tmr : s.popClient.tmr = s.tmr := rfl
@[simp] theorem State.popClient_pre : s.popClient.pre = s.pre := rfl
@[simp] theorem State.popClient_expq : s.popClient.expq = s.expq := rfl
@[simp] theorem State.popClient_fault : s.popClient.fault = s.fault := rfl
@[simp] theorem State.popClient_finfo : s.popClient.finfo = s.finfo := rfl
@[simp] theorem State.popClient_rst : s.popClient.rst = s.rst := rfl
@[simp] theorem State.popClient_host : s.popClient.host = s.host := rfl
@[simp] theorem State.popClient_clients : s.popClient.clients = s.clients.tail := rfl
@[simp] theorem State.popClient_expander : s.popClient.expander = s.expander := rfl
@[simp] theorem State.popClient_lcd : s.popClient.lcd = s.lcd := rfl
@[simp] theorem State.popClient_trace : s.popClient.trace = s.trace := rfl
@[simp] theorem State.popClient_fresh : s.popClient.fresh = s.fresh := rfl

/-! ## State.withLcd -/

@[simp] theorem State.withLcd_cfg (l : Lcd) : (s.withLcd l).cfg = s.cfg := rfl
@[simp] theorem State.withLcd_shv (l : Lcd) : (s.withLcd l).shv = s.shv := rfl
@[simp] theorem State.withLcd_fn (l : Lcd) : (s.withLcd l).fn = s.fn := rfl
@[simp] theorem State.withLcd_dc (l : Lcd) : (s.withLcd l).dc = s.dc := rfl
@[simp] theorem State.withLcd_em (l : Lcd) : (s.withLcd l).em = s.em := rfl
@[simp] theorem State.withLcd_rc (l : Lcd) : (s.withLcd l).rc = s.rc := rfl
@[simp] theorem State.withLcd_roff (l : Lcd) : (s.withLcd l).roff = s.roff := rfl
@[simp] theorem State.withLcd_busy (l : Lcd) : (s.withLcd l).busy = s.busy := rfl
@[simp] theorem State.withLcd_uq (l : Lcd) : (s.withLcd l).uq = s.uq := rfl
@[simp] theorem State.withLcd_tmr (l : Lcd) : (s.withLcd l).tmr = s.tmr := rfl
@[simp] theorem State.withLcd_pre (l : Lcd) : (s.withLcd l).pre = s.pre := rfl
@[simp] theorem State.withLcd_expq (l : Lcd) : (s.withLcd l).expq = s.expq := rfl
@[simp] theorem State.withLcd_fault (l : Lcd) : (s.withLcd l).fault = s.fault := rfl
@[simp] theorem State.withLcd_finfo (l : Lcd) : (s.withLcd l).finfo = s.finfo := rfl
@[simp] theorem State.withLcd_rst (l : Lcd) : (s.withLcd l).rst = s.rst := rfl
@[simp] theorem State.withLcd_host (l : Lcd) : (s.withLcd l).host = s.host := rfl
@[simp] theorem State.withLcd_clients (l : Lcd) : (s.withLcd l).clients = s.clients := rfl
@[simp] theorem State.withLcd_expander (l : Lcd) : (s.withLcd l).expander = s.expander := rfl
@[simp] theorem State.withLcd_lcd (l : Lcd) : (s.withLcd l).lcd = l := rfl
@[simp] theorem State.withLcd_trace (l : Lcd) : (s.withLcd l).trace = s.trace := rfl
@[simp] theorem State.withLcd_fresh (l : Lcd) : (s.withLcd l).fresh = s.fresh := rfl

/-! ## State.useFresh -/

@[simp] theorem State.useFresh_cfg : s.useFresh.cfg = s.cfg := rfl
@[simp] theorem State.useFresh_shv : s.useFresh.shv = s.shv := rfl
@[simp] theorem State.useFresh_fn : s.useFresh.fn = s.fn := rfl
@[simp] theorem State.useFresh_dc : s.useFresh.dc = s.dc := rfl
@[simp] theorem State.useFresh_em : s.useFresh.em = s.em := rfl
@[simp] theorem State.useFresh_rc : s.useFresh.rc = s.rc := rfl
@[simp] theorem State.useFresh_roff : s.useFresh.roff = s.roff := rfl
@[simp] theorem State.useFresh_busy : s.useFresh.busy = s.busy := rfl
@[simp] theorem State.useFresh_uq : s.useFresh.uq = s.uq := rfl
@[simp] theorem State.useFresh_tmr : s.useFresh.tmr = s.tmr := rfl
@[simp] theorem State.useFresh_pre : s.useFresh.pre = s.pre := rfl
@[simp] theorem State.useFresh_expq : s.useFresh.expq = s.expq := rfl
@[simp] theorem State.useFresh_fault : s.useFresh.fault = s.fault := rfl
@[simp] theorem State.useFresh_finfo : s.useFresh.finfo = s.finfo := rfl
@[simp] theorem State.useFresh_rst : s.useFresh.rst = s.rst := rfl
@[simp] theorem State.useFresh_host : s.useFresh.host = s.host := rfl
@[simp] theorem State.useFresh_clients : s.useFresh.clients = s.clients := rfl
@[simp] theorem State.useFresh_expander : s.useFresh.expander = s.expander := rfl
@[simp] theorem State.useFresh_lcd : s.useFresh.lcd = s.lcd := rfl
@[simp] theorem State.useFresh_trace : s.useFresh.trace = s.trace := rfl
@[simp] theorem State.useFresh_fresh : s.useFresh.fresh = s.fresh + 1 := rfl

/-! ## State.resetBlock -/

@[simp] theorem State.resetBlock_cfg : s.resetBlock.cfg = s.cfg := rfl
@[simp] theorem State.resetBlock_shv : s.resetBlock.shv = false := rfl
@[simp] theorem State.resetBlock_fn : s.resetBlock.fn = none := rfl
@[simp] theorem State.resetBlock_dc : s.resetBlock.dc = none := rfl
@[simp] theorem State.resetBlock_em : s.resetBlock.em = none := rfl
@[simp] theorem State.resetBlock_rc : s.resetBlock.rc = none := rfl
@[simp] theorem State.resetBlock_roff : s.resetBlock.roff = none := rfl
@[simp] theorem State.resetBlock_busy : s.resetBlock.busy = false := rfl
@[simp] theorem State.resetBlock_uq : s.resetBlock.uq = [] := rfl
@[simp] theorem State.resetBlock_tmr : s.resetBlock.tmr = 0 := rfl
@[simp] theorem State.resetBlock_pre : s.resetBlock.pre = 0 := rfl
@[simp] theorem State.resetBlock_expq : s.resetBlock.expq = none := rfl
@[simp] theorem State.resetBlock_fault : s.resetBlock.fault = .none := rfl
@[simp] theorem State.resetBlock_finfo : s.resetBlock.finfo = 0 := rfl
@[simp] theorem State.resetBlock_rst : s.resetBlock.rst = false := rfl
@[simp] theorem State.resetBlock_host : s.resetBlock.host = s.host := rfl
@[simp] theorem State.resetBlock_clients : s.resetBlock.clients = s.clients := rfl
@[simp] theorem State.resetBlock_expander : s.resetBlock.expander = s.expander := rfl
@[simp] theorem State.resetBlock_lcd : s.resetBlock.lcd = s.lcd := rfl
@[simp] theorem State.resetBlock_trace : s.resetBlock.trace = s.trace := rfl
@[simp] theorem State.resetBlock_fresh : s.resetBlock.fresh = s.fresh := rfl

/-! ## accepted -/

@[simp] theorem accepted_cfg (ops : List MicroOp) (c : Byte) : (accepted ops c s).cfg = s.cfg := rfl
@[simp] theorem accepted_shv (ops : List MicroOp) (c : Byte) : (accepted ops c s).shv = s.shv := rfl
@[simp] theorem accepted_fn (ops : List MicroOp) (c : Byte) : (accepted ops c s).fn = s.fn := rfl
@[simp] theorem accepted_dc (ops : List MicroOp) (c : Byte) : (accepted ops c s).dc = s.dc := rfl
@[simp] theorem accepted_em (ops : List MicroOp) (c : Byte) : (accepted ops c s).em = s.em := rfl
@[simp] theorem accepted_rc (ops : List MicroOp) (c : Byte) : (accepted ops c s).rc = s.rc := rfl
@[simp] theorem accepted_roff (ops : List MicroOp) (c : Byte) : (accepted ops c s).roff = s.roff := rfl
@[simp] theorem accepted_busy (ops : List MicroOp) (c : Byte) : (accepted ops c s).busy = true := rfl
@[simp] theorem accepted_uq (ops : List MicroOp) (c : Byte) : (accepted ops c s).uq = ops ++ [.done c] := rfl
@[simp] theorem accepted_tmr (ops : List MicroOp) (c : Byte) : (accepted ops c s).tmr = s.tmr := rfl
@[simp] theorem accepted_pre (ops : List MicroOp) (c : Byte) : (accepted ops c s).pre = s.pre := rfl
@[simp] theorem accepted_expq (ops : List MicroOp) (c : Byte) : (accepted ops c s).expq = s.expq := rfl
@[simp] theorem accepted_fault (ops : List MicroOp) (c : Byte) : (accepted ops c s).fault = s.fault := rfl
@[simp] theorem accepted_finfo (ops : List MicroOp) (c : Byte) : (accepted ops c s).finfo = s.finfo := rfl
@[simp] theorem accepted_rst (ops : List MicroOp) (c : Byte) : (accepted ops c s).rst = s.rst := rfl
@[simp] theorem accepted_host (ops : List MicroOp) (c : Byte) : (accepted ops c s).host = s.host := rfl
@[simp] theorem accepted_clients (ops : List MicroOp) (c : Byte) : (accepted ops c s).clients = s.clients := rfl
@[simp] theorem accepted_expander (ops : List MicroOp) (c : Byte) : (accepted ops c s).expander = s.expander := rfl
@[simp] theorem accepted_lcd (ops : List MicroOp) (c : Byte) : (accepted ops c s).lcd = s.lcd := rfl
@[simp] theorem accepted_trace (ops : List MicroOp) (c : Byte) : (accepted ops c s).trace = s.trace ++ [.accept s.host.data] := rfl
@[simp] theorem accepted_fresh (ops : List MicroOp) (c : Byte) : (accepted ops c s).fresh = s.fresh := rfl

/-! ## faulted -/

@[simp] theorem faulted_cfg (c : FaultCode) : (faulted c s).cfg = s.cfg := rfl
@[simp] theorem faulted_shv (c : FaultCode) : (faulted c s).shv = s.shv := rfl
@[simp] theorem faulted_fn (c : FaultCode) : (faulted c s).fn = s.fn := rfl
@[simp] theorem faulted_dc (c : FaultCode) : (faulted c s).dc = s.dc := rfl
@[simp] theorem faulted_em (c : FaultCode) : (faulted c s).em = s.em := rfl
@[simp] theorem faulted_rc (c : FaultCode) : (faulted c s).rc = s.rc := rfl
@[simp] theorem faulted_roff (c : FaultCode) : (faulted c s).roff = s.roff := rfl
@[simp] theorem faulted_busy (c : FaultCode) : (faulted c s).busy = s.busy := rfl
@[simp] theorem faulted_uq (c : FaultCode) : (faulted c s).uq = s.uq := rfl
@[simp] theorem faulted_tmr (c : FaultCode) : (faulted c s).tmr = s.tmr := rfl
@[simp] theorem faulted_pre (c : FaultCode) : (faulted c s).pre = s.pre := rfl
@[simp] theorem faulted_expq (c : FaultCode) : (faulted c s).expq = s.expq := rfl
@[simp] theorem faulted_fault (c : FaultCode) : (faulted c s).fault = c := rfl
@[simp] theorem faulted_finfo (c : FaultCode) : (faulted c s).finfo = s.host.data := rfl
@[simp] theorem faulted_rst (c : FaultCode) : (faulted c s).rst = s.rst := rfl
@[simp] theorem faulted_host (c : FaultCode) : (faulted c s).host = s.host := rfl
@[simp] theorem faulted_clients (c : FaultCode) : (faulted c s).clients = s.clients := rfl
@[simp] theorem faulted_expander (c : FaultCode) : (faulted c s).expander = s.expander := rfl
@[simp] theorem faulted_lcd (c : FaultCode) : (faulted c s).lcd = s.lcd := rfl
@[simp] theorem faulted_trace (c : FaultCode) : (faulted c s).trace = s.trace ++ [.fault c] := rfl
@[simp] theorem faulted_fresh (c : FaultCode) : (faulted c s).fresh = s.fresh := rfl

/-! ## lcdTake -/

@[simp] theorem lcdTake_cfg (t : LcdTransfer) (f : Lcd → Lcd) : (lcdTake t f s).cfg = s.cfg := rfl
@[simp] theorem lcdTake_shv (t : LcdTransfer) (f : Lcd → Lcd) : (lcdTake t f s).shv = s.shv := rfl
@[simp] theorem lcdTake_fn (t : LcdTransfer) (f : Lcd → Lcd) : (lcdTake t f s).fn = s.fn := rfl
@[simp] theorem lcdTake_dc (t : LcdTransfer) (f : Lcd → Lcd) : (lcdTake t f s).dc = s.dc := rfl
@[simp] theorem lcdTake_em (t : LcdTransfer) (f : Lcd → Lcd) : (lcdTake t f s).em = s.em := rfl
@[simp] theorem lcdTake_rc (t : LcdTransfer) (f : Lcd → Lcd) : (lcdTake t f s).rc = s.rc := rfl
@[simp] theorem lcdTake_roff (t : LcdTransfer) (f : Lcd → Lcd) : (lcdTake t f s).roff = s.roff := rfl
@[simp] theorem lcdTake_busy (t : LcdTransfer) (f : Lcd → Lcd) : (lcdTake t f s).busy = s.busy := rfl
@[simp] theorem lcdTake_uq (t : LcdTransfer) (f : Lcd → Lcd) : (lcdTake t f s).uq = s.uq := rfl
@[simp] theorem lcdTake_tmr (t : LcdTransfer) (f : Lcd → Lcd) : (lcdTake t f s).tmr = s.tmr := rfl
@[simp] theorem lcdTake_pre (t : LcdTransfer) (f : Lcd → Lcd) : (lcdTake t f s).pre = s.pre := rfl
@[simp] theorem lcdTake_expq (t : LcdTransfer) (f : Lcd → Lcd) : (lcdTake t f s).expq = s.expq := rfl
@[simp] theorem lcdTake_fault (t : LcdTransfer) (f : Lcd → Lcd) : (lcdTake t f s).fault = s.fault := rfl
@[simp] theorem lcdTake_finfo (t : LcdTransfer) (f : Lcd → Lcd) : (lcdTake t f s).finfo = s.finfo := rfl
@[simp] theorem lcdTake_rst (t : LcdTransfer) (f : Lcd → Lcd) : (lcdTake t f s).rst = s.rst := rfl
@[simp] theorem lcdTake_host (t : LcdTransfer) (f : Lcd → Lcd) : (lcdTake t f s).host = s.host := rfl
@[simp] theorem lcdTake_clients (t : LcdTransfer) (f : Lcd → Lcd) : (lcdTake t f s).clients = s.clients := rfl
@[simp] theorem lcdTake_expander (t : LcdTransfer) (f : Lcd → Lcd) : (lcdTake t f s).expander = s.expander := rfl
@[simp] theorem lcdTake_lcd (t : LcdTransfer) (f : Lcd → Lcd) : (lcdTake t f s).lcd = { f s.lcd with taken := s.lcd.taken ++ [t] } := rfl
@[simp] theorem lcdTake_trace (t : LcdTransfer) (f : Lcd → Lcd) : (lcdTake t f s).trace = s.trace := rfl
@[simp] theorem lcdTake_fresh (t : LcdTransfer) (f : Lcd → Lcd) : (lcdTake t f s).fresh = s.fresh := rfl

end Sys2Proof.Machine
end

