-- ==== Sys2Proof/Laws/Lines.lean ====
section
/-! SUPPORT. The expander's levels after an operation, and the nibble on the lines. -/

namespace Sys2Proof.Machine

/-- Bit `j` after bit `i` was set to a level. -/
theorem getLsbD_setLevelBit (v : BitVec 8) (i j : Nat) (l : Bool) :
    (setLevelBit v i l).getLsbD j = if j = i ∧ i < 8 then l else v.getLsbD j := by
  by_cases hj : j < 8
  · by_cases hij : j = i
    · subst hij
      cases l <;> simp [setLevelBit, hj]
    · cases l
      · by_cases hlt : j < i
        · simp [setLevelBit, hij, hj, hlt]
        · have hne : j - i ≠ 0 := by omega
          simp [setLevelBit, hij, hj, hlt, hne]
      · by_cases hlt : j < i
        · simp [setLevelBit, hij, hj, hlt]
        · have hne : j - i ≠ 0 := by omega
          simp [setLevelBit, hij, hj, hlt, hne]
  · have h1 : v.getLsbD j = false := BitVec.getLsbD_of_ge v j (by omega)
    have h2 : (setLevelBit v i l).getLsbD j = false := BitVec.getLsbD_of_ge _ j (by omega)
    rw [h1, h2]
    by_cases h : j = i ∧ i < 8
    · omega
    · simp [h]

@[simp] theorem setLevel_acks (op : ExpOp) (e : Expander) : (e.setLevel op).acks = e.acks := rfl

@[simp] theorem setLevel_ackRest (op : ExpOp) (e : Expander) :
    (e.setLevel op).ackRest = e.ackRest := rfl

@[simp] theorem setLevel_staged (op : ExpOp) (e : Expander) :
    (e.setLevel op).staged = setLevelBit e.staged op.line op.level := rfl

/-- A deferred operation leaves the physical levels (20_memory R210). -/
theorem setLevel_phys_defer (line : Nat) (level : Bool) (e : Expander) :
    (e.setLevel ⟨line, level, .defer⟩).phys = e.phys := rfl

/-- A latch-now operation commits every staged level (20_memory R210). -/
theorem setLevel_phys_now (line : Nat) (level : Bool) (e : Expander) :
    (e.setLevel ⟨line, level, .now⟩).phys = setLevelBit e.staged line level := rfl

/-- Bit `k` of the nibble on the lines is the level of data line `k` (20_memory R221). -/
theorem getLsbD_lineNibble (la : LineAssignment) (phys : BitVec 8) :
    (lineNibble la phys).getLsbD 0 = phys.getLsbD la.d0
      ∧ (lineNibble la phys).getLsbD 1 = phys.getLsbD la.d1
      ∧ (lineNibble la phys).getLsbD 2 = phys.getLsbD la.d2
      ∧ (lineNibble la phys).getLsbD 3 = phys.getLsbD la.d3 := by
  unfold lineNibble
  generalize phys.getLsbD la.d0 = a, phys.getLsbD la.d1 = b, phys.getLsbD la.d2 = c,
    phys.getLsbD la.d3 = d
  revert a b c d
  decide

/-- A nibble is its four bits. -/
theorem nibble_ext {a b : Nibble} (h0 : a.getLsbD 0 = b.getLsbD 0) (h1 : a.getLsbD 1 = b.getLsbD 1)
    (h2 : a.getLsbD 2 = b.getLsbD 2) (h3 : a.getLsbD 3 = b.getLsbD 3) : a = b := by
  apply BitVec.eq_of_getLsbD_eq
  intro i hi
  have : i = 0 ∨ i = 1 ∨ i = 2 ∨ i = 3 := by omega
  rcases this with rfl | rfl | rfl | rfl <;> assumption

/-- What a valid LineAssignment gives: every line exists and no two are the same. -/
theorem LineAssignment.valid_iff (la : LineAssignment) :
    la.valid = true ↔ (∀ l ∈ la.lines, l < 8) ∧ la.lines.Nodup := by
  simp [Sys2Proof.LineAssignment.valid]

end Sys2Proof.Machine
end

