-- ==== Sys2Proof/Laws/Ops.lean ====
section
/-! SUPPORT. What each shared operation can do, said once: acceptance, faults, the toggles, the LCD's
words, the expander, and the parts of a cycle. -/

namespace Sys2Proof.Machine

/-! ## Outcomes -/

@[simp] theorem mapNext_next (f : State → State) (s : State) : mapNext f (.next s) = .next (f s) := rfl

@[simp] theorem andThen_next (s : State) (f : State → Outcome) : andThen (.next s) f = f s := rfl

/-- A mapped outcome is a next state only from a next state. -/
theorem mapNext_eq_next {f : State → State} {o : Outcome} {t : State} :
    mapNext f o = .next t ↔ ∃ s, o = .next s ∧ f s = t := by
  cases o <;> simp [mapNext]

/-- A chained outcome is a next state only through a next state. -/
theorem andThen_eq_next {o : Outcome} {f : State → Outcome} {t : State} :
    andThen o f = .next t ↔ ∃ s, o = .next s ∧ f s = .next t := by
  cases o <;> simp [andThen]

/-! ## Requests -/

theorem accept_eq (ops : List MicroOp) (c : Byte) (s : State) :
    accept ops c s = .next (accepted ops c s) := rfl

theorem raiseFault_eq (c : FaultCode) (s : State) : raiseFault c s = .next (faulted c s) := rfl

/-- A toggle of a configured block. -/
theorem toggleDc_configured (f : Byte → Byte) {s : State} {v : Byte} (h : s.shv = true)
    (hv : s.dc = some v) :
    toggleDc f s = .next (accepted (cmd s.cfg.la (codeDisplay ||| f v)) 0 (s.setDc (f v))) := by
  simp [toggleDc, h, hv, accept_eq]

/-- A toggle of a block that no BEGIN has configured. -/
theorem toggleDc_unconfigured (f : Byte → Byte) {s : State} (h : s.shv = false) :
    toggleDc f s = .next (faulted .notConfigured s) := by
  simp [toggleDc, h, raiseFault_eq]

theorem toggleEm_configured (f : Byte → Byte) {s : State} {v : Byte} (h : s.shv = true)
    (hv : s.em = some v) :
    toggleEm f s = .next (accepted (cmd s.cfg.la (codeEntry ||| f v)) 0 (s.setEm (f v))) := by
  simp [toggleEm, h, hv, accept_eq]

theorem toggleEm_unconfigured (f : Byte → Byte) {s : State} (h : s.shv = false) :
    toggleEm f s = .next (faulted .notConfigured s) := by
  simp [toggleEm, h, raiseFault_eq]

/-- Everything a toggle of DC can do. -/
theorem toggleDc_cases (f : Byte → Byte) (s : State) :
    (∃ v, s.shv = true ∧ s.dc = some v ∧
      toggleDc f s = .next (accepted (cmd s.cfg.la (codeDisplay ||| f v)) 0 (s.setDc (f v))))
    ∨ ((s.shv = false ∨ s.dc = none) ∧ toggleDc f s = .next (faulted .notConfigured s)) := by
  cases hs : s.shv <;> cases hd : s.dc <;> simp [toggleDc, hs, hd, accept_eq, raiseFault_eq]

/-- Everything a toggle of EM can do. -/
theorem toggleEm_cases (f : Byte → Byte) (s : State) :
    (∃ v, s.shv = true ∧ s.em = some v ∧
      toggleEm f s = .next (accepted (cmd s.cfg.la (codeEntry ||| f v)) 0 (s.setEm (f v))))
    ∨ ((s.shv = false ∨ s.em = none) ∧ toggleEm f s = .next (faulted .notConfigured s)) := by
  cases hs : s.shv <;> cases hd : s.em <;> simp [toggleEm, hs, hd, accept_eq, raiseFault_eq]

/-! ## The LCD -/

/-- An LCD word always runs, and changes the LCD and the free-value counter alone. -/
theorem exec_of_decodeLcd {w : LcdWord} {i : Instr} (h : decodeLcd w = .ok i) (s : State) :
    ∃ l k, exec i s = .next { s with lcd := l, fresh := k } := by
  simp only [decodeLcd] at h
  repeat' split at h
  all_goals first
    | (cases h; exact ⟨_, _, rfl⟩)
    | (simp at h)

/-- A lone nibble always runs, and changes the LCD and the free-value counter alone. -/
theorem exec_of_decodeNibble {w : LoneNibble} {i : Instr} (h : decodeNibble w = .ok i) (s : State) :
    ∃ l k, exec i s = .next { s with lcd := l, fresh := k } := by
  simp only [decodeNibble] at h
  repeat' split at h
  all_goals first
    | (cases h; exact ⟨_, _, rfl⟩)
    | (simp at h)

/-- A byte at the LCD always runs, and changes the LCD and the free-value counter alone. -/
theorem lcdRun_next (rs : Bool) (b : Byte) (s : State) :
    ∃ l k, lcdRun rs b s = .next { s with lcd := l, fresh := k } := by
  unfold lcdRun
  cases h : decodeLcd (LcdWord.of rs b) with
  | ok i => exact exec_of_decodeLcd h s
  | error e => exact ⟨_, _, rfl⟩

/-- A nibble at the LCD is always taken, and changes the LCD and the free-value counter alone. -/
theorem lcdNibble_next (rs : Bool) (n : Nibble) (s : State) :
    ∃ l k, lcdNibble rs n s = .next { s with lcd := l, fresh := k } := by
  unfold lcdNibble
  split
  · exact ⟨_, _, rfl⟩
  · obtain ⟨l, k, h⟩ := lcdRun_next rs _ (s.withLcd { s.lcd with phase := .fourBit })
    exact ⟨l, k, h⟩
  · split
    · next h => exact exec_of_decodeNibble h s
    · obtain ⟨l, k, h⟩ := lcdRun_next rs _ s.useFresh
      exact ⟨l, k, h⟩

/-- An expander operation always succeeds (20_memory R210); it changes the expander's levels, the LCD
and the free-value counter alone. -/
theorem performOp_next (op : ExpOp) (s : State) :
    ∃ l k, performOp op s =
      .next { s with expander := s.expander.setLevel op, lcd := l, fresh := k } := by
  unfold performOp
  simp only
  split
  · obtain ⟨l, k, h⟩ := lcdNibble_next _ _ (s.withExpander (s.expander.setLevel op))
    exact ⟨l, k, h⟩
  · exact ⟨s.lcd, s.fresh, rfl⟩

/-- An operation that raises E hands the LCD the nibble on the lines after it. -/
theorem performOp_of_rises {op : ExpOp} {s : State}
    (h : eRises s.cfg.la s.expander.phys (s.expander.setLevel op).phys = true) :
    performOp op s = lcdNibble ((s.expander.setLevel op).phys.getLsbD s.cfg.la.rs)
      (lineNibble s.cfg.la (s.expander.setLevel op).phys)
      (s.withExpander (s.expander.setLevel op)) := if_pos h

/-- An operation that does not raise E changes the expander alone. -/
theorem performOp_of_steady {op : ExpOp} {s : State}
    (h : eRises s.cfg.la s.expander.phys (s.expander.setLevel op).phys = false) :
    performOp op s = .next (s.withExpander (s.expander.setLevel op)) :=
  if_neg (by rw [h]; exact Bool.false_ne_true)

/-- The same, from its result. -/
theorem performOp_frame {op : ExpOp} {s t : State} (h : performOp op s = .next t) :
    ∃ l k, t = { s with expander := s.expander.setLevel op, lcd := l, fresh := k } := by
  obtain ⟨l, k, h'⟩ := performOp_next op s
  rw [h'] at h
  exact ⟨l, k, by injection h with h; exact h.symm⟩

/-! ## The parts of a cycle -/

/-- The other clients change the expander's levels, their script, the LCD and the free-value counter
alone. -/
theorem serveClients_frame {s t : State} (h : serveClients s = .next t) :
    ∃ e l k, t = { s with
      clients := s.clients.tail, expander := e, lcd := l, fresh := k }
      ∧ e.acks = s.expander.acks ∧ e.ackRest = s.expander.ackRest := by
  unfold serveClients at h
  split at h
  · next hc =>
    injection h with h
    subst h
    exact ⟨s.expander, s.lcd, s.fresh, by rw [hc, List.tail_nil, ← hc], rfl, rfl⟩
  · next hc =>
    injection h with h
    subst h
    exact ⟨s.expander, s.lcd, s.fresh, by simp [State.popClient], rfl, rfl⟩
  · split at h
    · cases h
    · obtain ⟨l, k, rfl⟩ := performOp_frame h
      exact ⟨_, l, k, rfl, rfl, rfl⟩

/-- With no other client about to act, nothing happens. -/
theorem serveClients_nil {s : State} (h : s.clients = []) : serveClients s = .next s := by
  simp [serveClients, h]

/-- Reset always completes: the block at its reset values, the levels of the expander, the LCD and the
free-value counter as an operation cut off may have left them. -/
theorem resetCycle_next (s : State) :
    ∃ e l k, resetCycle s =
      .next { s.resetBlock with expander := e, lcd := l, fresh := k }
      ∧ e.acks = s.expander.acks ∧ e.ackRest = s.expander.ackRest := by
  unfold resetCycle
  split
  · exact ⟨s.expander, s.lcd, s.fresh, rfl, rfl, rfl⟩
  · next op _ =>
    split
    · obtain ⟨l, k, h⟩ := performOp_next op s.useFresh
      exact ⟨s.expander.setLevel op, l, k, by rw [h]; rfl, rfl, rfl⟩
    · exact ⟨s.expander, s.lcd, s.fresh + 1, rfl, rfl, rfl⟩

/-- Everything the head of the queue can do. -/
theorem queueCycle_cases (s : State) :
    (∃ op rest, s.expq = none ∧ s.uq = .expSet op :: rest ∧ queueCycle s = .next (s.present op))
    ∨ (∃ us rest, s.expq = none ∧ s.uq = .wait us :: rest
        ∧ queueCycle s = .next ((s.startWait us).emit (.wait us)))
    ∨ (∃ c rest, s.expq = none ∧ s.uq = .done c :: rest
        ∧ queueCycle s = .next (s.finish.emit (.done c)))
    ∨ (∃ op op' rest, s.expq = some op ∧ s.uq = .expSet op' :: rest ∧ s.expander.ackNow = false
        ∧ queueCycle s = .next s.popAck)
    ∨ (∃ op op' rest, s.expq = some op ∧ s.uq = .expSet op' :: rest ∧ s.expander.ackNow = true
        ∧ queueCycle s = performOp op (s.popAck.finishSet.emit (.expSet op)))
    ∨ (s.expq = none ∧ s.uq = [] ∧ queueCycle s = .fault .noRule)
    ∨ (s.expq.isSome ∧ (∀ op rest, s.uq ≠ .expSet op :: rest) ∧ queueCycle s = .fault .noRule) := by
  unfold queueCycle
  rcases hq : s.expq with _ | op
  · rcases hu : s.uq with _ | ⟨_ | _ | _, rest⟩ <;> simp
  · rcases hu : s.uq with _ | ⟨_ | _ | _, rest⟩
    · simp
    · cases ha : s.expander.ackNow <;> simp
    · simp
    · simp

/-- A step of a valid instance is a cycle. -/
theorem step_valid {s : State} (h : s.cfg.valid = true) : step s = cycle s := by simp [step, h]

/-- A cycle with no other client about to act and `rst` low is the block's own. -/
theorem cycle_quiet {s : State} (hc : s.clients = []) (hr : s.rst = false) :
    cycle s = blockCycle s := by simp [cycle, serveClients_nil hc, hr]

/-- The cycle of a ready block with a request on its port. -/
theorem blockCycle_accept {s : State} (hr : s.ready = true) (hv : s.host.valid = true) :
    blockCycle s = acceptCycle s := by simp [blockCycle, hr, hv]

/-- The cycle of a block whose timer counts. -/
theorem blockCycle_tick {s : State} (hb : s.busy = true) (ht : s.tmr ≠ 0) :
    blockCycle s = .next s.tick := by
  have hr : s.ready = false := by simp [State.ready, hb]
  rw [blockCycle, hr, if_neg (by simp), if_pos ht]

/-- The cycle of a busy block whose timer has stopped. -/
theorem blockCycle_queue {s : State} (hb : s.busy = true) (ht : s.tmr = 0) :
    blockCycle s = queueCycle s := by simp [blockCycle, State.ready, hb, ht]

end Sys2Proof.Machine
end

