-- ==== Sys2Proof/Laws/PerInstr.lean ====
section
/-! SUPPORT. Statements made per instruction: the encoded word of every instruction has the fixed bits of
its row of spec/opcode_table.json. -/

namespace Sys2Proof.Laws.TableRow

/-- The fixed bits of an instruction's row of spec/opcode_table.json: its mask and its match, as the
table writes them. -/
def row (i : Instr) : Nat × Nat :=
  match i with
  | .begin _ _ _ => (0xFF, 0x00)
  | .clear => (0xFF, 0x01)
  | .home => (0xFF, 0x02)
  | .display => (0xFF, 0x03)
  | .noDisplay => (0xFF, 0x04)
  | .cursor => (0xFF, 0x05)
  | .noCursor => (0xFF, 0x06)
  | .blink => (0xFF, 0x07)
  | .noBlink => (0xFF, 0x08)
  | .leftToRight => (0xFF, 0x09)
  | .rightToLeft => (0xFF, 0x0A)
  | .autoscroll => (0xFF, 0x0B)
  | .noAutoscroll => (0xFF, 0x0C)
  | .scrollDisplayLeft => (0xFF, 0x0D)
  | .scrollDisplayRight => (0xFF, 0x0E)
  | .setRowOffsets _ _ _ _ => (0xFF, 0x0F)
  | .setCursor _ _ => (0xFF, 0x10)
  | .createChar _ _ => (0xFF, 0x11)
  | .write _ => (0xFF, 0x12)
  | .command _ => (0xFF, 0x13)
  | .lcdClearDisplay => (0x1FF, 0x001)
  | .lcdReturnHome _ => (0x1FE, 0x002)
  | .lcdEntryModeSet _ _ => (0x1FC, 0x004)
  | .lcdDisplayControl _ _ _ => (0x1F8, 0x008)
  | .lcdCursorDisplayShift _ _ _ => (0x1F0, 0x010)
  | .lcdFunctionSet _ _ _ _ => (0x1E0, 0x020)
  | .lcdSetCgramAddr _ => (0x1C0, 0x040)
  | .lcdSetDdramAddr _ => (0x180, 0x080)
  | .lcdWriteData _ => (0x100, 0x100)
  | .lcdNibble8BitFunctionSet => (0x1F, 0x03)
  | .lcdNibble4BitFunctionSet => (0x1F, 0x02)

/-- The bits of an encoded word, numbered as the table numbers them. -/
def bits : Encoded → Nat
  | .request w => w.toNat
  | .lcdWord w => w.toNat
  | .loneNibble w => w.toNat

/-- The encoded word of `i` agrees with its row's match on its row's mask. -/
def Statement (i : Instr) : Prop := bits (encode i) &&& (row i).1 = (row i).2

/-- A request's fixed bits are its opcode byte. -/
theorem request_row (w : Request) (op : Byte) (h : Request.byte 0 w = op) :
    bits (.request w) &&& 0xFF = op.toNat := by
  have h' := congrArg BitVec.toNat h
  simp only [Request.byte, BitVec.extractLsb'_toNat, Nat.mul_zero, Nat.shiftRight_zero] at h'
  rw [← h']
  exact Nat.and_two_pow_sub_one_eq_mod w.toNat 8

theorem begin (cols rows : Byte) (size : CharSize) : Statement (.begin cols rows size) :=
  request_row _ _ (byte_ofBytes _ 0 (by omega))

theorem clear : Statement .clear :=
  request_row _ _ (byte_ofBytes _ 0 (by omega))

theorem home : Statement .home :=
  request_row _ _ (byte_ofBytes _ 0 (by omega))

theorem display : Statement .display :=
  request_row _ _ (byte_ofBytes _ 0 (by omega))

theorem noDisplay : Statement .noDisplay :=
  request_row _ _ (byte_ofBytes _ 0 (by omega))

theorem cursor : Statement .cursor :=
  request_row _ _ (byte_ofBytes _ 0 (by omega))

theorem noCursor : Statement .noCursor :=
  request_row _ _ (byte_ofBytes _ 0 (by omega))

theorem blink : Statement .blink :=
  request_row _ _ (byte_ofBytes _ 0 (by omega))

theorem noBlink : Statement .noBlink :=
  request_row _ _ (byte_ofBytes _ 0 (by omega))

theorem leftToRight : Statement .leftToRight :=
  request_row _ _ (byte_ofBytes _ 0 (by omega))

theorem rightToLeft : Statement .rightToLeft :=
  request_row _ _ (byte_ofBytes _ 0 (by omega))

theorem autoscroll : Statement .autoscroll :=
  request_row _ _ (byte_ofBytes _ 0 (by omega))

theorem noAutoscroll : Statement .noAutoscroll :=
  request_row _ _ (byte_ofBytes _ 0 (by omega))

theorem scrollDisplayLeft : Statement .scrollDisplayLeft :=
  request_row _ _ (byte_ofBytes _ 0 (by omega))

theorem scrollDisplayRight : Statement .scrollDisplayRight :=
  request_row _ _ (byte_ofBytes _ 0 (by omega))

theorem setRowOffsets (o0 o1 o2 o3 : Byte) : Statement (.setRowOffsets o0 o1 o2 o3) :=
  request_row _ _ (byte_ofBytes _ 0 (by omega))

theorem setCursor (col row : Byte) : Statement (.setCursor col row) :=
  request_row _ _ (byte_ofBytes _ 0 (by omega))

theorem createChar (slot : Byte) (bitmap : List Byte) : Statement (.createChar slot bitmap) :=
  request_row _ _ (byte_ofBytes _ 0 (by omega))

theorem write (byte : Byte) : Statement (.write byte) :=
  request_row _ _ (byte_ofBytes _ 0 (by omega))

theorem command (byte : Byte) : Statement (.command byte) :=
  request_row _ _ (byte_ofBytes _ 0 (by omega))

theorem lcdClearDisplay : Statement .lcdClearDisplay := by unfold Statement; decide

theorem lcdReturnHome (x : BitVec 1) : Statement (.lcdReturnHome x) := by
  unfold Statement
  revert x
  decide

theorem lcdEntryModeSet (id sh : Bool) : Statement (.lcdEntryModeSet id sh) := by
  unfold Statement
  revert id sh
  decide

theorem lcdDisplayControl (d c b : Bool) : Statement (.lcdDisplayControl d c b) := by
  unfold Statement
  revert d c b
  decide

theorem lcdCursorDisplayShift (sc rl : Bool) (x : BitVec 2) : Statement (.lcdCursorDisplayShift sc rl x) := by
  unfold Statement
  revert sc rl x
  decide

theorem lcdFunctionSet (dl n f : Bool) (x : BitVec 2) : Statement (.lcdFunctionSet dl n f x) := by
  unfold Statement
  revert dl n f x
  decide

theorem lcdSetCgramAddr (addr : BitVec 6) : Statement (.lcdSetCgramAddr addr) := by
  unfold Statement
  revert addr
  decide

theorem lcdSetDdramAddr (addr : BitVec 7) : Statement (.lcdSetDdramAddr addr) := by
  unfold Statement
  revert addr
  decide

theorem lcdWriteData (byte : Byte) : Statement (.lcdWriteData byte) := by
  unfold Statement
  revert byte
  decide

theorem lcdNibble8BitFunctionSet : Statement .lcdNibble8BitFunctionSet := by unfold Statement; decide

theorem lcdNibble4BitFunctionSet : Statement .lcdNibble4BitFunctionSet := by unfold Statement; decide

end Sys2Proof.Laws.TableRow
end

