-- ==== Sys2Proof/Laws/Step.lean ====
section
/-! SUPPORT. What a step can do, said once: the cases of a cycle, what a request's acceptance leaves, and
runs of several cycles. -/

namespace Sys2Proof.Machine

/-! ## Requests -/

/-- Every request that decodes either faults or is accepted, its shadow writes made before; it never
stops the machine. -/
theorem exec_of_decode {w : Request} {i : Instr} (h : decode w = .ok i) (s : State) :
    (∃ c, c ≠ .none ∧ exec i s = .next (faulted c s))
    ∨ ∃ shv fn dc em rc roff ops c, exec i s = .next (accepted ops c
        { s with shv := shv, fn := fn, dc := dc, em := em, rc := rc, roff := roff }) := by
  have toggle : ∀ o : Outcome,
      ((∃ f, o = toggleDc f s) ∨ ∃ f, o = toggleEm f s) →
      (∃ c, c ≠ .none ∧ o = .next (faulted c s))
      ∨ ∃ shv fn dc em rc roff ops c, o = .next (accepted ops c
        { s with shv := shv, fn := fn, dc := dc, em := em, rc := rc, roff := roff }) := by
    rintro o (⟨f, rfl⟩ | ⟨f, rfl⟩)
    · rcases toggleDc_cases f s with ⟨v, _, _, e⟩ | ⟨_, e⟩
      · exact .inr ⟨_, _, _, _, _, _, _, _, e⟩
      · exact .inl ⟨_, by simp, e⟩
    · rcases toggleEm_cases f s with ⟨v, _, _, e⟩ | ⟨_, e⟩
      · exact .inr ⟨_, _, _, _, _, _, _, _, e⟩
      · exact .inl ⟨_, by simp, e⟩
  simp only [decode] at h
  split at h
  case h_17 =>
    cases h
    simp only [exec, execSetCursor, accept_eq, raiseFault_eq]
    repeat' split
    all_goals first
      | exact .inl ⟨_, by simp, rfl⟩
      | exact .inr ⟨_, _, _, _, _, _, _, _, rfl⟩
  case h_21 => cases h
  all_goals
    cases h
    first
      | exact toggle _ (.inl ⟨_, rfl⟩)
      | exact toggle _ (.inr ⟨_, rfl⟩)
      | exact .inr ⟨_, _, _, _, _, _, _, _, rfl⟩

/-- Everything the acceptance of a request can do. -/
theorem acceptCycle_cases {s t : State} (h : acceptCycle s = .next t) :
    (∃ c, c ≠ .none ∧ t = (faulted c s).releasePort)
    ∨ ∃ shv fn dc em rc roff ops c, t = (accepted ops c
        { s with shv := shv, fn := fn, dc := dc, em := em, rc := rc, roff := roff }).releasePort := by
  unfold acceptCycle at h
  cases hd : decode s.host.data with
  | ok i =>
    rcases exec_of_decode hd s with ⟨c, hc, e⟩ | ⟨shv, fn, dc, em, rc, roff, ops, c, e⟩
    · simp only [hd, e, mapNext_next] at h
      injection h with h
      exact .inl ⟨c, hc, h.symm⟩
    · simp only [hd, e, mapNext_next] at h
      injection h with h
      exact .inr ⟨shv, fn, dc, em, rc, roff, ops, c, h.symm⟩
  | error e =>
    simp only [hd, raiseFault_eq, mapNext_next] at h
    injection h with h
    exact .inl ⟨.illegalRequest, by simp, h.symm⟩

/-! ## A cycle -/

/-- The state in which the block acts: the other clients have had their turn. -/
def State.served (e : Expander) (l : Lcd) (k : Nat) (s : State) : State :=
  { s with clients := s.clients.tail, expander := e, lcd := l, fresh := k }

/-- Everything a step that has a next state can do. -/
theorem step_cases {s t : State} (h : step s = .next t) :
    s.cfg.valid = true ∧ ∃ e l k, serveClients s = .next (s.served e l k)
      ∧ e.acks = s.expander.acks ∧ e.ackRest = s.expander.ackRest
      ∧ ((s.rst = true ∧ ∃ e' l' k', e'.acks = e.acks ∧ e'.ackRest = e.ackRest
            ∧ t = (s.served e' l' k').resetBlock)
        ∨ (s.rst = false ∧ s.ready = true ∧ s.host.valid = true
            ∧ acceptCycle (s.served e l k) = .next t)
        ∨ (s.rst = false ∧ (s.ready = false ∨ s.host.valid = false)
          ∧ ((s.tmr ≠ 0 ∧ t = (s.served e l k).tick)
            ∨ (s.tmr = 0 ∧ s.busy = false ∧ t = s.served e l k)
            ∨ (s.tmr = 0 ∧ s.busy = true
              ∧ ((∃ op rest, s.expq = none ∧ s.uq = .expSet op :: rest
                    ∧ t = (s.served e l k).present op)
                ∨ (∃ us rest, s.expq = none ∧ s.uq = .wait us :: rest
                    ∧ t = ((s.served e l k).startWait us).emit (.wait us))
                ∨ (∃ c rest, s.expq = none ∧ s.uq = .done c :: rest
                    ∧ t = (s.served e l k).finish.emit (.done c))
                ∨ (∃ op op' rest, s.expq = some op ∧ s.uq = .expSet op' :: rest
                    ∧ e.ackNow = false ∧ t = (s.served e l k).popAck)
                ∨ ∃ op op' rest l' k', s.expq = some op ∧ s.uq = .expSet op' :: rest
                    ∧ e.ackNow = true
                    ∧ t = ((s.served (e.popAck.setLevel op) l' k').finishSet.emit
                        (.expSet op))))))) := by
  have hv : s.cfg.valid = true := by
    by_contra hv
    simp [step, hv] at h
  refine ⟨hv, ?_⟩
  rw [step_valid hv, cycle] at h
  obtain ⟨s1, h1, h⟩ := andThen_eq_next.1 h
  obtain ⟨e, l, k, rfl, ha, har⟩ := serveClients_frame h1
  refine ⟨e, l, k, h1, ha, har, ?_⟩
  simp only at h
  split at h
  · next hr =>
    obtain ⟨e', l', k', h', ha', har'⟩ := resetCycle_next (s.served e l k)
    have h2 := h'.symm.trans h
    injection h2 with h2
    exact .inl ⟨hr, e', l', k', ha', har', h2.symm⟩
  · next hr =>
    have hr : s.rst = false := by simpa using hr
    unfold blockCycle at h
    split at h
    · next hp =>
      simp only [State.ready, Bool.and_eq_true] at hp
      exact .inr (.inl ⟨hr, by simpa [State.ready] using hp.1, hp.2, h⟩)
    · next hp =>
      have hp : s.ready = false ∨ s.host.valid = false := by
        have hp' : ¬(s.ready && s.host.valid) = true := hp
        cases h3 : s.ready <;> cases h4 : s.host.valid <;> simp_all
      refine .inr (.inr ⟨hr, hp, ?_⟩)
      split at h
      · next ht =>
        injection h with h
        exact .inl ⟨ht, h.symm⟩
      · next ht =>
        have ht : s.tmr = 0 := by simpa using ht
        split at h
        · next hb =>
          refine .inr (.inr ⟨ht, hb, ?_⟩)
          rcases queueCycle_cases (s.served e l k) with
            ⟨op, rest, he, hu, hq⟩ | ⟨us, rest, he, hu, hq⟩ | ⟨c, rest, he, hu, hq⟩
            | ⟨op, op', rest, he, hu, hk, hq⟩ | ⟨op, op', rest, he, hu, hk, hq⟩ | ⟨_, _, hq⟩
            | ⟨_, _, hq⟩
          · have h2 := hq.symm.trans h
            injection h2 with h2
            exact .inl ⟨op, rest, he, hu, h2.symm⟩
          · have h2 := hq.symm.trans h
            injection h2 with h2
            exact .inr (.inl ⟨us, rest, he, hu, h2.symm⟩)
          · have h2 := hq.symm.trans h
            injection h2 with h2
            exact .inr (.inr (.inl ⟨c, rest, he, hu, h2.symm⟩))
          · have h2 := hq.symm.trans h
            injection h2 with h2
            exact .inr (.inr (.inr (.inl ⟨op, op', rest, he, hu, hk, h2.symm⟩)))
          · obtain ⟨l', k', h2⟩ := performOp_frame (hq.symm.trans h)
            exact .inr (.inr (.inr (.inr ⟨op, op', rest, l', k', he, hu, hk, h2⟩)))
          · cases hq.symm.trans h
          · cases hq.symm.trans h
        · next hb =>
          injection h with h
          exact .inr (.inl ⟨ht, by simpa using hb, h.symm⟩)

/-! ## Runs -/

/-- A trace that a `Done` has just been added to ends with it. -/
@[simp] theorem endsWithDone_done (es : List Event) (c : Byte) :
    endsWithDone (es ++ [.done c]) = true := by simp [endsWithDone]

/-- What a final state is. -/
theorem final_iff (s : State) : s.final = true ↔ s.busy = false ∧ s.uq = [] ∧ s.fault = .none
    ∧ s.host.exhausted = true ∧ endsWithDone s.trace = true := by
  simp [State.final, and_assoc]

/-- One more cycle at the end of a run. -/
theorem runCycles_succ (k : Nat) (s : State) :
    runCycles (k + 1) s = andThen (runCycles k s) step := by
  induction k generalizing s with
  | zero => simp only [runCycles, andThen_next]; cases step s <;> rfl
  | succ k ih =>
    rw [runCycles]
    cases h : step s with
    | next t => simp only [andThen_next]; rw [ih]; simp [runCycles, h]
    | fault r => simp [runCycles, h, andThen]
    | refused r => simp [runCycles, h, andThen]

/-- A run cut in two. -/
theorem runCycles_add (a b : Nat) (s : State) :
    runCycles (a + b) s = andThen (runCycles a s) (runCycles b) := by
  induction a generalizing s with
  | zero => simp [runCycles]
  | succ a ih =>
    rw [Nat.succ_add, runCycles, runCycles]
    cases h : step s with
    | next t => simp [ih]
    | fault r => simp [andThen]
    | refused r => simp [andThen]

/-! ## Performing a list -/

/-- A list performed in two parts. -/
theorem performAll_append (a b : List MicroOp) (s : State) :
    performAll (a ++ b) s = andThen (performAll a s) (performAll b) := by
  induction a generalizing s with
  | nil => simp [performAll]
  | cons op ops ih =>
    cases op with
    | expSet op =>
      obtain ⟨l, k, h⟩ := performOp_next op s
      simp [performAll, h, ih]
    | wait us => simpa [performAll] using ih s
    | done c => simpa [performAll] using ih s

/-- Performing a list always completes; it changes the expander's levels, the LCD and the free-value
counter alone. -/
theorem performAll_next (ops : List MicroOp) (s : State) :
    ∃ e l k, performAll ops s = .next { s with expander := e, lcd := l, fresh := k }
      ∧ e.acks = s.expander.acks ∧ e.ackRest = s.expander.ackRest := by
  induction ops generalizing s with
  | nil => exact ⟨s.expander, s.lcd, s.fresh, rfl, rfl, rfl⟩
  | cons op ops ih =>
    cases op with
    | expSet op =>
      obtain ⟨l, k, h⟩ := performOp_next op s
      obtain ⟨e', l', k', h', ha, har⟩ :=
        ih { s with expander := s.expander.setLevel op, lcd := l, fresh := k }
      exact ⟨e', l', k', by simp [performAll, h, h'], ha, har⟩
    | wait us => exact ih s
    | done c => exact ih s

end Sys2Proof.Machine
end

