-- ==== Sys2Proof/Laws/Transfer.lean ====
section
/-! SUPPORT. What a nibble on the lines does at the LCD: the LCD's words do not depend on the expander,
and performing NIB hands the LCD exactly one nibble. -/

namespace Sys2Proof.Machine

/-! ## The LCD does not look at the expander -/

/-- What an LCD word does depends on the LCD and the free-value counter alone. -/
theorem exec_decodeLcd_withExpander {w : LcdWord} {i : Instr} (h : decodeLcd w = .ok i)
    (e : Expander) (s : State) :
    exec i (s.withExpander e) = mapNext (State.withExpander e) (exec i s) := by
  simp only [decodeLcd] at h
  repeat' split at h
  all_goals first
    | (cases h; rfl)
    | (simp at h)

/-- The same of a lone nibble. -/
theorem exec_decodeNibble_withExpander {w : LoneNibble} {i : Instr} (h : decodeNibble w = .ok i)
    (e : Expander) (s : State) :
    exec i (s.withExpander e) = mapNext (State.withExpander e) (exec i s) := by
  simp only [decodeNibble] at h
  repeat' split at h
  all_goals first
    | (cases h; rfl)
    | (simp at h)

/-- A byte at the LCD does not depend on the expander. -/
theorem lcdRun_withExpander (rs : Bool) (b : Byte) (e : Expander) (s : State) :
    lcdRun rs b (s.withExpander e) = mapNext (State.withExpander e) (lcdRun rs b s) := by
  unfold lcdRun
  cases h : decodeLcd (LcdWord.of rs b) with
  | ok i => exact exec_decodeLcd_withExpander h e s
  | error => rfl

/-- A nibble at the LCD does not depend on the expander. -/
theorem lcdNibble_withExpander (rs : Bool) (n : Nibble) (e : Expander) (s : State) :
    lcdNibble rs n (s.withExpander e) = mapNext (State.withExpander e) (lcdNibble rs n s) := by
  unfold lcdNibble
  cases hp : s.lcd.phase with
  | fourBit => simp only [State.withExpander, hp]; rfl
  | fourBitLow high =>
    have := lcdRun_withExpander rs (high ++ n) e (s.withLcd { s.lcd with phase := .fourBit })
    have hp' : (s.withExpander e).lcd.phase = .fourBitLow high := hp
    simp only [hp']
    exact this
  | eightBit =>
    have hp' : (s.withExpander e).lcd.phase = .eightBit := hp
    simp only [hp']
    split
    · next h => exact exec_decodeNibble_withExpander h e s
    · exact lcdRun_withExpander rs _ e s.useFresh

/-! ## Operations that leave E -/

/-- On an expander whose two levels of E agree, an operation that does not raise E changes the expander
alone and leaves the levels agreeing. -/
theorem performOp_quiet {op : ExpOp} {s : State} (hs : EnableSettled s)
    (hop : op.line ≠ s.cfg.la.en ∨ (op.level = false ∧ op.latch = .now)) :
    performOp op s = .next (s.withExpander (s.expander.setLevel op))
      ∧ EnableSettled (s.withExpander (s.expander.setLevel op)) := by
  rcases op with ⟨line, level, latch⟩
  unfold EnableSettled at *
  constructor
  · apply performOp_of_steady
    cases latch
    · simp [eRises, setLevel_phys_defer]
    · simp only [eRises, setLevel_phys_now, getLsbD_setLevelBit, hs]
      rcases hop with hne | ⟨hl, _⟩
      · have hne : line ≠ s.cfg.la.en := hne
        rw [if_neg (by rintro ⟨h, _⟩; exact hne h.symm)]
        simp
      · have hl : level = false := hl
        subst hl
        split <;> simp
  · cases latch
    · rcases hop with hne | ⟨_, h⟩
      · have hne : line ≠ s.cfg.la.en := hne
        show (setLevelBit s.expander.staged line level).getLsbD s.cfg.la.en
          = s.expander.phys.getLsbD s.cfg.la.en
        rw [getLsbD_setLevelBit, if_neg (by rintro ⟨h, _⟩; exact hne h.symm), hs]
      · cases h
    · rfl

/-- The lines of a valid assignment are distinct and exist. -/
theorem lines_distinct {la : LineAssignment} (h : la.valid = true) :
    (la.rs < 8 ∧ la.en < 8 ∧ la.d0 < 8 ∧ la.d1 < 8 ∧ la.d2 < 8 ∧ la.d3 < 8)
      ∧ (la.rs ≠ la.en ∧ la.rs ≠ la.d0 ∧ la.rs ≠ la.d1 ∧ la.rs ≠ la.d2 ∧ la.rs ≠ la.d3)
      ∧ (la.en ≠ la.d0 ∧ la.en ≠ la.d1 ∧ la.en ≠ la.d2 ∧ la.en ≠ la.d3)
      ∧ (la.d0 ≠ la.d1 ∧ la.d0 ≠ la.d2 ∧ la.d0 ≠ la.d3) ∧ (la.d1 ≠ la.d2 ∧ la.d1 ≠ la.d3)
      ∧ la.d2 ≠ la.d3 := by
  simp only [LineAssignment.valid, LineAssignment.lines, Bool.and_eq_true, List.all_eq_true,
    decide_eq_true_eq, List.mem_cons, List.nodup_cons, List.not_mem_nil, or_false, not_or] at h
  obtain ⟨hlt, h1, h2, h3, h4, h5, _⟩ := h
  exact ⟨⟨hlt _ (by simp), hlt _ (by simp), hlt _ (by simp), hlt _ (by simp), hlt _ (by simp),
    hlt _ (by simp)⟩, h1, h2, h3, h4, h5⟩

/-! ## A nibble on the lines -/

/-- Quiet operations in a row change the expander alone. -/
theorem performAll_quiet {ops : List ExpOp} {s : State} (hs : EnableSettled s)
    (hops : ∀ op ∈ ops, op.line ≠ s.cfg.la.en ∨ (op.level = false ∧ op.latch = .now)) :
    performAll (ops.map .expSet) s
        = .next (s.withExpander (ops.foldl (fun e op => e.setLevel op) s.expander))
      ∧ EnableSettled (s.withExpander (ops.foldl (fun e op => e.setLevel op) s.expander)) := by
  induction ops generalizing s with
  | nil => exact ⟨rfl, hs⟩
  | cons op ops ih =>
    obtain ⟨h, h'⟩ := performOp_quiet hs (hops op (by simp))
    obtain ⟨g, g'⟩ := ih h' fun o ho => hops o (List.mem_cons_of_mem _ ho)
    exact ⟨by rw [List.map_cons, performAll, h, andThen_next, g]; rfl, g'⟩

/-- The expander with NIB's nibble on the data lines and E low, all committed. -/
def nibReady (la : LineAssignment) (v : Nibble) (e : Expander) : Expander :=
  [⟨la.d0, v.getLsbD 0, .defer⟩, ⟨la.d1, v.getLsbD 1, .defer⟩, ⟨la.d2, v.getLsbD 2, .defer⟩,
    ⟨la.d3, v.getLsbD 3, .now⟩, ⟨la.en, false, .now⟩].foldl
    (fun (e : Expander) (op : ExpOp) => e.setLevel op) e

/-- The expander while E is high in NIB. -/
def nibHigh (la : LineAssignment) (v : Nibble) (e : Expander) : Expander :=
  (nibReady la v e).setLevel ⟨la.en, true, .now⟩

/-- The expander after NIB. -/
def nibLevels (la : LineAssignment) (v : Nibble) (e : Expander) : Expander :=
  (nibHigh la v e).setLevel ⟨la.en, false, .now⟩

/-- The levels in NIB: the nibble on the data lines, RS as staged before. -/
theorem nibReady_lines {la : LineAssignment} (hv : la.valid = true) (v : Nibble) (e : Expander)
    (j : Nat) : (nibReady la v e).staged.getLsbD j =
      if j = la.en then false else if j = la.d3 then v.getLsbD 3 else if j = la.d2 then v.getLsbD 2
        else if j = la.d1 then v.getLsbD 1 else if j = la.d0 then v.getLsbD 0
        else e.staged.getLsbD j := by
  obtain ⟨⟨hrs, hen, h0, h1, h2, h3⟩, -⟩ := lines_distinct hv
  simp only [nibReady, List.foldl_cons, List.foldl_nil, setLevel_staged, getLsbD_setLevelBit, hen,
    h0, h1, h2, h3, and_true]

/-- The nibble that a set of levels puts on the data lines. -/
theorem lineNibble_of_lines {la : LineAssignment} {v : Nibble} {x : BitVec 8}
    (h0 : x.getLsbD la.d0 = v.getLsbD 0) (h1 : x.getLsbD la.d1 = v.getLsbD 1)
    (h2 : x.getLsbD la.d2 = v.getLsbD 2) (h3 : x.getLsbD la.d3 = v.getLsbD 3) :
    lineNibble la x = v := by
  obtain ⟨b0, b1, b2, b3⟩ := getLsbD_lineNibble la x
  exact nibble_ext (b0.trans h0) (b1.trans h1) (b2.trans h2) (b3.trans h3)

/-- The levels while E is high: E high, the nibble on the data lines, RS as staged before, all
committed. -/
theorem nibHigh_lines {la : LineAssignment} (hv : la.valid = true) (v : Nibble) (e : Expander) :
    (nibHigh la v e).phys.getLsbD la.en = true
      ∧ (nibHigh la v e).phys.getLsbD la.rs = e.staged.getLsbD la.rs
      ∧ lineNibble la (nibHigh la v e).phys = v := by
  obtain ⟨⟨hrs, hen, h0, h1, h2, h3⟩, ⟨re, r0, r1, r2, r3⟩, ⟨e0, e1, e2, e3⟩, ⟨d01, d02, d03⟩,
    ⟨d12, d13⟩, d23⟩ := lines_distinct hv
  have hx : ∀ j, (nibHigh la v e).phys.getLsbD j
      = if j = la.en then true else (nibReady la v e).staged.getLsbD j := by
    intro j
    rw [nibHigh, setLevel_phys_now, getLsbD_setLevelBit]
    simp [hen]
  refine ⟨?_, ?_, lineNibble_of_lines ?_ ?_ ?_ ?_⟩ <;> rw [hx] <;>
    simp only [nibReady_lines hv, re, r0, r1, r2, r3, e0.symm, e1.symm, e2.symm, e3.symm, d01, d02,
      d03, d12, d13, d23, if_true, if_false]

/-- The levels after NIB(v): all committed, E low, RS as staged before, the nibble on the data lines
(40_sequencer R406). -/
theorem nibLevels_lines {la : LineAssignment} (hv : la.valid = true) (v : Nibble) (e : Expander) :
    (nibLevels la v e).phys = (nibLevels la v e).staged
      ∧ (nibLevels la v e).phys.getLsbD la.en = false
      ∧ (nibLevels la v e).phys.getLsbD la.rs = e.staged.getLsbD la.rs
      ∧ lineNibble la (nibLevels la v e).phys = v := by
  obtain ⟨⟨hrs, hen, h0, h1, h2, h3⟩, ⟨re, r0, r1, r2, r3⟩, ⟨e0, e1, e2, e3⟩, ⟨d01, d02, d03⟩,
    ⟨d12, d13⟩, d23⟩ := lines_distinct hv
  have hx : ∀ j, (nibLevels la v e).phys.getLsbD j
      = if j = la.en then false else (nibReady la v e).staged.getLsbD j := by
    intro j
    rw [nibLevels, setLevel_phys_now, nibHigh, setLevel_staged, getLsbD_setLevelBit,
      getLsbD_setLevelBit]
    simp only [hen, and_true]
    split <;> rfl
  refine ⟨rfl, ?_, ?_, lineNibble_of_lines ?_ ?_ ?_ ?_⟩ <;> rw [hx] <;>
    simp only [nibReady_lines hv, re, r0, r1, r2, r3, e0.symm, e1.symm, e2.symm, e3.symm, d01, d02,
      d03, d12, d13, d23, if_true, if_false]

/-- NIB(v) hands the LCD the nibble `v` once, with the staged level of RS (40_sequencer R403). -/
theorem performAll_nib {s : State} (hv : s.cfg.la.valid = true) (hs : EnableSettled s) (v : Nibble) :
    performAll (nib s.cfg.la v) s = mapNext (State.withExpander (nibLevels s.cfg.la v s.expander))
      (lcdNibble (s.expander.staged.getLsbD s.cfg.la.rs) v s) := by
  obtain ⟨⟨hrs, hen, -⟩, -, ⟨e0, e1, e2, e3⟩, -⟩ := lines_distinct hv
  have hsplit : nib s.cfg.la v = [⟨s.cfg.la.d0, v.getLsbD 0, .defer⟩,
      ⟨s.cfg.la.d1, v.getLsbD 1, .defer⟩, ⟨s.cfg.la.d2, v.getLsbD 2, .defer⟩,
      ⟨s.cfg.la.d3, v.getLsbD 3, .now⟩, ⟨s.cfg.la.en, false, .now⟩].map MicroOp.expSet
      ++ [.wait tEnLow, setLine s.cfg.la.en true, .wait tEnHigh, setLine s.cfg.la.en false,
        .wait tCmd] := rfl
  rw [hsplit, performAll_append, (performAll_quiet hs (by simp [Ne.symm e0, Ne.symm e1, Ne.symm e2,
    Ne.symm e3])).1, andThen_next]
  obtain ⟨a1, a2, a3⟩ := nibHigh_lines hv v s.expander
  obtain ⟨b1, b2, -, -⟩ := nibLevels_lines hv v s.expander
  have hlow : (nibReady s.cfg.la v s.expander).phys.getLsbD s.cfg.la.en = false := by
    show (setLevelBit _ s.cfg.la.en false).getLsbD s.cfg.la.en = false
    rw [getLsbD_setLevelBit, if_pos ⟨rfl, hen⟩]
  have hup : performOp ⟨s.cfg.la.en, true, .now⟩
      (s.withExpander (nibReady s.cfg.la v s.expander))
      = mapNext (State.withExpander (nibHigh s.cfg.la v s.expander))
        (lcdNibble (s.expander.staged.getLsbD s.cfg.la.rs) v s) := by
    have e : ((s.withExpander (nibReady s.cfg.la v s.expander)).expander.setLevel
        ⟨s.cfg.la.en, true, .now⟩) = nibHigh s.cfg.la v s.expander := rfl
    rw [performOp_of_rises (by
      rw [e]
      show (!(nibReady s.cfg.la v s.expander).phys.getLsbD s.cfg.la.en
        && (nibHigh s.cfg.la v s.expander).phys.getLsbD s.cfg.la.en) = true
      rw [hlow, a1]
      rfl), e]
    show lcdNibble ((nibHigh s.cfg.la v s.expander).phys.getLsbD s.cfg.la.rs)
      (lineNibble s.cfg.la (nibHigh s.cfg.la v s.expander).phys)
      (s.withExpander (nibHigh s.cfg.la v s.expander)) = _
    rw [a2, a3, lcdNibble_withExpander]
  obtain ⟨l, k, hl⟩ := lcdNibble_next (s.expander.staged.getLsbD s.cfg.la.rs) v s
  have hdown : performOp ⟨s.cfg.la.en, false, .now⟩
      { s with lcd := l, fresh := k, expander := nibHigh s.cfg.la v s.expander }
      = .next { s with lcd := l, fresh := k, expander := nibLevels s.cfg.la v s.expander } := by
    refine performOp_of_steady ?_
    show (!(nibHigh s.cfg.la v s.expander).phys.getLsbD s.cfg.la.en
      && (nibLevels s.cfg.la v s.expander).phys.getLsbD s.cfg.la.en) = false
    rw [a1, b2]
    rfl
  show andThen (performOp ⟨s.cfg.la.en, true, .now⟩
    (s.withExpander (nibReady s.cfg.la v s.expander)))
    (fun s' => andThen (performOp ⟨s.cfg.la.en, false, .now⟩ s') .next) = _
  rw [hup, hl, mapNext_next, mapNext_next, andThen_next]
  show andThen (performOp ⟨s.cfg.la.en, false, .now⟩
    { s with lcd := l, fresh := k, expander := nibHigh s.cfg.la v s.expander }) _ = _
  rw [hdown]
  rfl

end Sys2Proof.Machine
end

