-- ==== Sys2Proof/Tests/Slice0.lean ====
section
/-! SUPPORT. The model's own tests: expected results from spec/95_test_vectors (V..) and from the rules
named, and for every obligation that has hypotheses a state that meets them. -/

namespace Sys2Proof.Tests

open Sys2Proof Sys2Proof.Machine

/-! ## Helpers -/

/-- The state of a next outcome. -/
def nextOf : Outcome → Option State
  | .next s => some s
  | _ => none

/-- The host presents the word `w` and nothing after it. -/
def asking (w : Request) (s : State) : State := { s with host := ⟨true, w, []⟩ }

/-- After `begin 16, 2` has completed (V10). -/
def after16x2 : State :=
  { State.reset with
    shv := true, fn := some 0x08, dc := some 0x04, em := some 0x02, rc := some 2
    roff := some ⟨0x00, 0x40, 0x10, 0x50⟩
    lcd := ⟨.fourBit, 0x08, 0x04, 0x02, .ddram, 0, []⟩ }

/-- The row count and the columns changed as another BEGIN would (V12). -/
def withGeometry (cols rc : Byte) (s : State) : State :=
  { s with rc := some rc, roff := some (beginOffsets cols) }

/-- A busy block with the queue `q`. -/
def busyWith (q : List MicroOp) (s : State) : State := { s with busy := true, uq := q }

/-- What the LCD takes when the request `w`, taken in one step, is performed. -/
def transfers (w : Request) (s : State) : Option (List LcdTransfer) :=
  match step (asking w s) with
  | .next t => (nextOf (performAll t.uq t)).map fun u => u.lcd.taken
  | _ => none

/-- DC and EM after one step with the request `w`. -/
def flagsAfter (w : Request) (s : State) : Option (Option Byte × Option Byte) :=
  (nextOf (step (asking w s))).map fun t => (t.dc, t.em)

/-- The fault code after one step with the request `w`. -/
def faultAfter (w : Request) (s : State) : Option FaultCode :=
  (nextOf (step (asking w s))).map fun t => t.fault

/-- An instruction byte of the spec's vectors. -/
def insByte (b : Byte) : LcdTransfer := .byte false b

/-- A data byte of the spec's vectors. -/
def datByte (b : Byte) : LcdTransfer := .byte true b

/-- The line number of a SET or STAGE. -/
def now (l : Nat) (v : Bool) : MicroOp := .expSet ⟨l, v, .now⟩

/-- A deferred line write. -/
def later (l : Nat) (v : Bool) : MicroOp := .expSet ⟨l, v, .defer⟩

/-! ## Well-formedness -/

/-- Seven rows are no glyph (43_addressing_data R730). -/
theorem test_wellformed_refuses_seven_rows :
    WellFormed (.createChar 0 [0, 0, 0, 0, 0, 0, 0]) = false := by decide

/-- Nine rows are no glyph. -/
theorem test_wellformed_refuses_nine_rows :
    WellFormed (.createChar 0 [0, 0, 0, 0, 0, 0, 0, 0, 0]) = false := by decide

/-- Eight rows are one (hypothesis of DecodeOfEncodeIsTheInstruction). -/
theorem test_wellformed_accepts_eight_rows :
    WellFormed (.createChar 255 [1, 2, 3, 4, 5, 6, 7, 8]) = true := by decide

/-! ## Decoding: words written out from V53, V54 and 41_initialization R506 -/

theorem test_decode_begin : decode 0x00000000000001041400 = .ok (.begin 20 4 .dots5x10) := by decide
theorem test_decode_clear : decode 0x00000000000000000001 = .ok .clear := by decide
theorem test_decode_home : decode 0x00000000000000000002 = .ok .home := by decide
theorem test_decode_display : decode 0x00000000000000000003 = .ok .display := by decide
theorem test_decode_noDisplay : decode 0x00000000000000000004 = .ok .noDisplay := by decide
theorem test_decode_cursor : decode 0x00000000000000000005 = .ok .cursor := by decide
theorem test_decode_noCursor : decode 0x00000000000000000006 = .ok .noCursor := by decide
theorem test_decode_blink : decode 0x00000000000000000007 = .ok .blink := by decide
theorem test_decode_noBlink : decode 0x00000000000000000008 = .ok .noBlink := by decide
theorem test_decode_leftToRight : decode 0x00000000000000000009 = .ok .leftToRight := by decide
theorem test_decode_rightToLeft : decode 0x0000000000000000000A = .ok .rightToLeft := by decide
theorem test_decode_autoscroll : decode 0x0000000000000000000B = .ok .autoscroll := by decide
theorem test_decode_noAutoscroll : decode 0x0000000000000000000C = .ok .noAutoscroll := by decide
theorem test_decode_scrollDisplayLeft :
    decode 0x0000000000000000000D = .ok .scrollDisplayLeft := by decide
theorem test_decode_scrollDisplayRight :
    decode 0x0000000000000000000E = .ok .scrollDisplayRight := by decide
theorem test_decode_setRowOffsets :
    decode 0x0000000000541440000F = .ok (.setRowOffsets 0x00 0x40 0x14 0x54) := by decide
theorem test_decode_setCursor : decode 0x00000000000000030510 = .ok (.setCursor 5 3) := by decide
theorem test_decode_createChar :
    decode 0x00110A041F040A110211
      = .ok (.createChar 2 [0x11, 0x0A, 0x04, 0x1F, 0x04, 0x0A, 0x11, 0x00]) := by decide
theorem test_decode_write : decode 0x00000000000000004112 = .ok (.write 0x41) := by decide
theorem test_decode_command : decode 0x00000000000000000F13 = .ok (.command 0x0F) := by decide
theorem test_decode_lcd_clear : decodeLcd 0x001 = .ok .lcdClearDisplay := by decide
theorem test_decode_lcd_home : decodeLcd 0x002 = .ok (.lcdReturnHome 0) := by decide
theorem test_decode_lcd_entry : decodeLcd 0x006 = .ok (.lcdEntryModeSet true false) := by decide
theorem test_decode_lcd_display :
    decodeLcd 0x00C = .ok (.lcdDisplayControl true false false) := by decide
theorem test_decode_lcd_shift :
    decodeLcd 0x01C = .ok (.lcdCursorDisplayShift true true 0) := by decide
theorem test_decode_lcd_function :
    decodeLcd 0x028 = .ok (.lcdFunctionSet false true false 0) := by decide
theorem test_decode_lcd_cgram : decodeLcd 0x050 = .ok (.lcdSetCgramAddr 0x10) := by decide
theorem test_decode_lcd_ddram : decodeLcd 0x0C5 = .ok (.lcdSetDdramAddr 0x45) := by decide
theorem test_decode_lcd_data : decodeLcd 0x141 = .ok (.lcdWriteData 0x41) := by decide
theorem test_decode_nibble_8bit : decodeNibble 0x03 = .ok .lcdNibble8BitFunctionSet := by decide
theorem test_decode_nibble_4bit : decodeNibble 0x02 = .ok .lcdNibble4BitFunctionSet := by decide

/-- The first unassigned opcode, and the last, are rejected by name (30_encoding R304, V50). -/
theorem test_decode_rejects_unassigned :
    decode 0x14 = .error (.illegalRequest 0x14) ∧ decode 0xFF = .error (.illegalRequest 0xFF) := by
  decide

/-- The byte 0x00 with RS = 0 has no format (30_encoding R320). -/
theorem test_decode_lcd_rejects_zero : decodeLcd 0x000 = .error (.noLcdFormat 0) := by decide

/-- A lone nibble with RS = 1 is none of BEGIN's (30_encoding R324). -/
theorem test_decode_nibble_rejects_rs : decodeNibble 0x13 = .error (.notLoneNibble 0x13) := by decide

/-- Ten bytes, byte 0 first (20_memory R223, V53). -/
theorem test_decode_bytes :
    decodeBytes [0x11, 0x02, 0x11, 0x0A, 0x04, 0x1F, 0x04, 0x0A, 0x11, 0x00]
      = .ok (.createChar 2 [0x11, 0x0A, 0x04, 0x1F, 0x04, 0x0A, 0x11, 0x00]) := by decide

/-- Rows of the opcode table, as the host numbers them. -/
theorem test_decode_table_words :
    decodeTableWord 8 0x10 = some (.setCursor 0 0)
      ∧ decodeTableWord 16 0x1FF = some (.lcdWriteData 0xFF)
      ∧ decodeTableWord 9 0x028 = some (.lcdFunctionSet false true false 0)
      ∧ decodeTableWord 5 0x02 = some .lcdNibble4BitFunctionSet
      ∧ decodeTableWord 8 0x14 = none := by decide

/-! ## The assembler (V53, 30_encoding R331) -/

theorem test_assemble_createChar :
    assembleLine "createChar 2, 0x11, 0x0A, 0x04, 0x1F, 0x04, 0x0A, 0x11, 0x00".toList
      = some [0x00110A041F040A110211] := by decide

theorem test_assemble_begin :
    assembleLine "begin 16, 2 ; two lines".toList = some [0x00000000000000021000]
      ∧ assembleLine "begin 20, 4, 5x10".toList = some [0x00000000000001041400] := by decide

theorem test_assemble_text :
    assembleLine "write \"Hi\"".toList = some [0x4812, 0x6912]
      ∧ assembleLine "write 'A'".toList = some [0x00000000000000004112] := by decide

theorem test_assemble_rejects :
    assembleLine "setCursor 256, 0".toList = none ∧ assembleLine "clear 1".toList = none := by decide

/-! ## Requests in one step -/

/-- V10: the transfers of `begin 16, 2`. -/
theorem test_begin_transfers :
    transfers 0x021000 State.reset
      = some [.nibble false 0x3, .nibble false 0x3, .nibble false 0x3, .nibble false 0x2,
          insByte 0x28, insByte 0x0C, insByte 0x01, insByte 0x06] := by decide

/-- V14, V13: `begin 16, 1` with unused bits set, from a state it replaces. -/
theorem test_begin_replaces :
    (nextOf (step (asking 0xFFFFFFFFFFFF03011000
      { after16x2 with dc := some 0x07, em := some 0x01, roff := some ⟨1, 2, 3, 4⟩ }))).map
      (fun t => (t.fn, t.dc, t.em, t.rc, t.roff))
      = some (some 0x04, some 0x04, some 0x02, some 1, some ⟨0x00, 0x40, 0x10, 0x50⟩) := by decide

/-- V11: rows = 2 with 5x10, by FONT10_ONE_LINE_ONLY. -/
theorem test_begin_function_bits :
    beginFunction true 2 .dots5x10 = 0x08 ∧ beginFunction false 2 .dots5x10 = 0x0C
      ∧ beginFunction true 1 .dots5x10 = 0x04 ∧ beginFunction true 0 .dots5x10 = 0x00 := by decide

/-- V12: the wrap of the default table. -/
theorem test_begin_offsets :
    beginOffsets 191 = ⟨0x00, 0x40, 0xBF, 0xFF⟩ ∧ beginOffsets 192 = ⟨0x00, 0x40, 0xC0, 0x00⟩ := by
  decide

/-- V20. -/
theorem test_clear : transfers 0x01 after16x2 = some [insByte 0x01] := by decide

/-- V20: the long settle ends the list. -/
theorem test_clear_settles :
    (nextOf (step (asking 0x01 after16x2))).map (fun t => t.uq.drop 21)
      = some [.wait 2000, .done 0] := by decide

/-- V21. -/
theorem test_home : transfers 0x02 after16x2 = some [insByte 0x02] := by decide

/-- V22, row by row. -/
theorem test_display : flagsAfter 0x03 after16x2 = some (some 0x04, some 0x02)
    ∧ transfers 0x03 after16x2 = some [insByte 0x0C] := by decide
theorem test_noDisplay : flagsAfter 0x04 after16x2 = some (some 0x00, some 0x02)
    ∧ transfers 0x04 after16x2 = some [insByte 0x08] := by decide
theorem test_cursor : flagsAfter 0x05 after16x2 = some (some 0x06, some 0x02)
    ∧ transfers 0x05 after16x2 = some [insByte 0x0E] := by decide
theorem test_noCursor : flagsAfter 0x06 after16x2 = some (some 0x04, some 0x02)
    ∧ transfers 0x06 after16x2 = some [insByte 0x0C] := by decide
theorem test_blink : flagsAfter 0x07 after16x2 = some (some 0x05, some 0x02)
    ∧ transfers 0x07 after16x2 = some [insByte 0x0D] := by decide
theorem test_noBlink : flagsAfter 0x08 after16x2 = some (some 0x04, some 0x02)
    ∧ transfers 0x08 after16x2 = some [insByte 0x0C] := by decide
theorem test_leftToRight : flagsAfter 0x09 after16x2 = some (some 0x04, some 0x02)
    ∧ transfers 0x09 after16x2 = some [insByte 0x06] := by decide
theorem test_rightToLeft : flagsAfter 0x0A after16x2 = some (some 0x04, some 0x00)
    ∧ transfers 0x0A after16x2 = some [insByte 0x04] := by decide
theorem test_autoscroll : flagsAfter 0x0B after16x2 = some (some 0x04, some 0x03)
    ∧ transfers 0x0B after16x2 = some [insByte 0x07] := by decide
theorem test_noAutoscroll : flagsAfter 0x0C after16x2 = some (some 0x04, some 0x02)
    ∧ transfers 0x0C after16x2 = some [insByte 0x06] := by decide

/-- V25: a toggle before BEGIN. -/
theorem test_toggle_before_begin : faultAfter 0x03 State.reset = some .notConfigured
    ∧ faultAfter 0x0C State.reset = some .notConfigured := by decide

/-- V25: FINFO holds the word, and nothing is accepted. -/
theorem test_fault_entry :
    (nextOf (step (asking 0x03 State.reset))).map
      (fun t => (t.finfo, t.trace, t.busy, outReqReady t))
      = some (0x03, [.fault .notConfigured], false, false) := by decide

/-- V30, V31. -/
theorem test_scrollDisplayLeft : transfers 0x0D after16x2 = some [insByte 0x18] := by decide
theorem test_scrollDisplayRight : transfers 0x0E after16x2 = some [insByte 0x1C] := by decide

/-- V34: nothing is sent, SHV stays 0. -/
theorem test_setRowOffsets :
    (nextOf (step (asking 0x541440000F State.reset))).map (fun t => (t.roff, t.shv, t.uq))
      = some (some ⟨0x00, 0x40, 0x14, 0x54⟩, false, [.done 0]) := by decide

/-- V32, at the edges of the address range. -/
theorem test_setCursor :
    transfers 0x030510 after16x2 = some [insByte 0xC5]
      ∧ transfers 0x013F10 after16x2 = some [insByte 0xFF]
      ∧ transfers 0x014010 after16x2 = some [insByte 0x80]
      ∧ transfers 0x01FF10 after16x2 = some [insByte 0xBF]
      ∧ transfers 0x060010 (withGeometry 20 4 after16x2) = some [insByte 0x94]
      ∧ transfers 0x031310 (withGeometry 20 4 after16x2) = some [insByte 0xE7] := by decide

/-- V32, V33: its faults. -/
theorem test_setCursor_faults :
    faultAfter 0x10 State.reset = some .notConfigured
      ∧ faultAfter 0x10 (withGeometry 16 0 after16x2) = some .rowOutOfTable
      ∧ faultAfter 0x040010 (withGeometry 16 5 after16x2) = some .rowOutOfTable
      ∧ faultAfter 0x030010 (withGeometry 16 5 after16x2) = some .none := by decide

/-- V36. -/
theorem test_createChar :
    transfers 0x0A150A15001FE0FF0A11 after16x2
      = some [insByte 0x50, datByte 0xFF, datByte 0xE0, datByte 0x1F, datByte 0x00, datByte 0x15,
          datByte 0x0A, datByte 0x15, datByte 0x0A] := by decide

/-- V37. -/
theorem test_createChar_slots : byteCgram 7 = 0x78 ∧ byteCgram 8 = 0x40 ∧ byteCgram 255 = 0x78 := by
  decide

/-- V46: the micro-operations of `write 'A'`. -/
theorem test_write_queue :
    (nextOf (step (asking 0x4112 State.reset))).map (fun t => t.uq)
      = some [now 0 true, later 4 false, later 5 false, later 6 true, now 7 false, now 1 false,
          .wait 1, now 1 true, .wait 1, now 1 false, .wait 50, later 4 true, later 5 false,
          later 6 false, now 7 false, now 1 false, .wait 1, now 1 true, .wait 1, now 1 false,
          .wait 50, .done 1] := by decide

/-- V41. -/
theorem test_write : transfers 0xFF12 after16x2 = some [datByte 0xFF] := by decide

/-- V44: the shadow stays. -/
theorem test_command : transfers 0x0F13 after16x2 = some [insByte 0x0F]
    ∧ flagsAfter 0x0F13 after16x2 = some (some 0x04, some 0x02) := by decide

/-- V45. -/
theorem test_command_zero : transfers 0x0013 after16x2 = some [insByte 0x00] := by decide

/-- V50. -/
theorem test_unassigned_faults : faultAfter 0x14 State.reset = some .illegalRequest
    ∧ faultAfter 0xFF after16x2 = some .illegalRequest := by decide

/-- V52: a faulted block takes nothing. -/
theorem test_faulted_takes_nothing :
    (nextOf (step (asking 0x021000 { State.reset with fault := .notConfigured }))).map
      (fun t => (t.shv, t.busy, t.host.valid)) = some (false, false, true) := by decide

/-! ## The LCD -/

/-- The words the LCD runs from where `withFetchWord` places them: D = 1, C = 0, B = 1. -/
theorem test_fetch_lcd_word :
    (nextOf (step (State.reset.withFetchWord 16 0x00D))).map
      (fun t => (t.lcd.dc, t.lcd.phase, t.lcd.taken))
      = some (0x05, .fourBit, [insByte 0x0D]) := by decide

/-- V54: I/D = 1, S = 0. -/
theorem test_fetch_lcd_entry :
    (nextOf (step (State.reset.withFetchWord 16 0x006))).map (fun t => t.lcd.em) = some 0x02 := by
  decide

/-- V54: DL = 0, N = 1, F = 0. -/
theorem test_fetch_lcd_function :
    (nextOf (step (State.reset.withFetchWord 16 0x028))).map (fun t => (t.lcd.fn, t.lcd.phase))
      = some (0x08, .fourBit) := by decide

/-- DL = 1 selects the 8-bit bus (70_reset_and_hazards R930). -/
theorem test_fetch_lcd_function_eight :
    (nextOf (step (State.reset.withFetchWord 16 0x030))).map (fun t => (t.lcd.fn, t.lcd.phase))
      = some (0x10, .eightBit) := by decide

/-- V54: CGRAM 0x10, DDRAM 0x45. -/
theorem test_fetch_lcd_addresses :
    (nextOf (step (State.reset.withFetchWord 16 0x050))).map (fun t => (t.lcd.space, t.lcd.addr))
      = some (.cgram, 0x10)
    ∧ (nextOf (step (State.reset.withFetchWord 16 0x0C5))).map (fun t => (t.lcd.space, t.lcd.addr))
      = some (.ddram, 0x45) := by decide

/-- A data word keeps the memory selected (70_reset_and_hazards R932). -/
theorem test_fetch_lcd_data :
    (nextOf (step ({ State.reset with
      lcd := { resetLcd with space := .cgram } }.withFetchWord 16 0x141))).map
      (fun t => (t.lcd.space, t.lcd.taken)) = some (.cgram, [datByte 0x41]) := by decide

/-- Clear and home select DDRAM (70_reset_and_hazards R932). -/
theorem test_fetch_lcd_clear_home :
    (nextOf (step ({ State.reset with
      lcd := { resetLcd with space := .cgram } }.withFetchWord 16 0x001))).map
      (fun t => t.lcd.space) = some .ddram
    ∧ (nextOf (step ({ State.reset with
      lcd := { resetLcd with space := .cgram, addr := 9 } }.withFetchWord 16 0x003))).map
      (fun t => (t.lcd.space, t.lcd.addr)) = some (.ddram, 0) := by decide

/-- The shift word writes no register. -/
theorem test_fetch_lcd_shift :
    (nextOf (step (State.reset.withFetchWord 16 0x018))).map
      (fun t => (t.lcd.fn, t.lcd.dc, t.lcd.em, t.lcd.taken))
      = some (0x10, 0x00, 0x02, [insByte 0x18]) := by decide

/-- The two lone nibbles (41_initialization R506, R513). -/
theorem test_fetch_lone_nibbles :
    (nextOf (step (State.reset.withFetchWord 5 0x02))).map (fun t => (t.lcd.phase, t.lcd.taken))
      = some (.fourBit, [.nibble false 0x2])
    ∧ (nextOf (step (State.reset.withFetchWord 5 0x03))).map (fun t => (t.lcd.phase, t.lcd.taken))
      = some (.eightBit, [.nibble false 0x3]) := by decide

/-- A request placed by `withFetchWord` is accepted in the next step. -/
theorem test_fetch_request :
    (nextOf (step (State.reset.withFetchWord 8 0x12))).map (fun t => (t.trace, t.uq.drop 21))
      = some ([.accept 0x12], [.done 1]) := by decide

/-- V4: staging does not commit. -/
theorem test_stage_then_latch :
    let e : Expander := ((⟨0, 0, [], true⟩ : Expander).setLevel ⟨4, true, .defer⟩).setLevel
      ⟨5, true, .defer⟩
    e.phys = 0 ∧ (e.setLevel ⟨7, false, .now⟩).phys = 0x30 := by decide

/-! ## The queue, the timer, reset -/

/-- A Wait is loaded and removed (40_sequencer R423). -/
theorem test_wait_loads :
    (nextOf (step (busyWith [.wait 2000, .done 0] State.reset))).map (fun t => (t.tmr, t.uq, t.trace))
      = some (2000, [.done 0], [.wait 2000]) := by decide

/-- The prescaler divides the clock (40_sequencer R431). -/
theorem test_prescaler :
    (nextOf (step { busyWith [.done 0] State.reset with
      cfg := { resetConfig with cycPerUs := 2 }, tmr := 5 })).map (fun t => (t.tmr, t.pre))
      = some (5, 1)
    ∧ (nextOf (step { busyWith [.done 0] State.reset with
      cfg := { resetConfig with cycPerUs := 2 }, tmr := 5, pre := 1 })).map (fun t => (t.tmr, t.pre))
      = some (4, 0) := by decide

/-- Reset in the middle of a request (70_reset_and_hazards R900). -/
theorem test_reset_aborts :
    (nextOf (step { busyWith [.wait 50, .done 0] after16x2 with rst := true, tmr := 7 })).map
      (fun t => (t.busy, t.uq, t.tmr, t.shv, t.dc)) = some (false, [], 0, false, none) := by decide

/-- The end of a run (70_reset_and_hazards R940): after the last `Done` with the stream over; not with
words still to come, not when reset cut the last request off, not after a fault that reset cleared. -/
theorem test_final :
    ({ after16x2 with trace := [.accept 0x0F, .done 0] } : State).final = true
      ∧ ({ after16x2 with
        trace := [.accept 0x0F, .done 0], host := ⟨false, 0, [0x01]⟩ } : State).final = false
      ∧ ({ State.reset with trace := [.accept 0x01] } : State).final = false
      ∧ ({ State.reset with trace := [.fault .notConfigured] } : State).final = false := by decide

/-- `rst` in the cycle that finds `Done` at the head: no `Done` is emitted, and the run has not ended. -/
theorem test_reset_at_done :
    (nextOf (step { busyWith [.done 0] after16x2 with rst := true, trace := [.accept 0x0F] })).map
      (fun t => (t.trace, t.final)) = some ([.accept 0x0F], false) := by decide

/-- The empty text, and a quote inside the text (log entry 25). -/
theorem test_assemble_text_edges :
    assembleLine "write \"\"".toList = some [] ∧ assembleLine "write \"a\"b\"".toList = none := by
  decide

/-- R330 with log entry 25: each byte is the ASCII code of the character, whatever stands after the literal. -/
theorem test_assemble_literal_edges :
    assembleLine "write '''".toList = some [0x2712]
      ∧ assembleLine "write ''' ; an apostrophe".toList = some [0x2712]
      ∧ assembleLine "write ';' ; a semicolon".toList = some [0x3B12]
      ∧ assembleLine "command '\"' ; it's a quote".toList = some [0x2213]
      ∧ assembleLine "write '' ; no character".toList = none := by decide

theorem test_assemble_text_semicolon :
    assembleLine "write \"';\" ; it's two requests".toList = some [0x2712, 0x3B12] := by decide

/-! ## Witnesses: states that meet the hypotheses of the obligations -/

/-- UnusedRequestBitsAreIgnored: two BEGINs and two CREATE_CHARs that differ in unused bits only. -/
theorem test_witness_unused_bits :
    ((0xFFFFFFFFFFFF03011000 : Request) ≠ 0x01011000
      ∧ (0xFFFFFFFFFFFF03011000 : Request) &&& usedBits 0x00 = 0x01011000 &&& usedBits 0x00)
    ∧ ((0x0A11 : Request) ≠ 0x0211
      ∧ (0x0A11 : Request) &&& usedBits 0x11 = 0x0211 &&& usedBits 0x11)
    ∧ (Request.byte 0 0x0A11).toNat < 0x14 ∧ (Request.byte 0 0x01011000).toNat < 0x14 := by decide

/-- UnassignedOpcodesFault, at both ends of the range. -/
theorem test_witness_unassigned :
    (asking 0x14 State.reset).cfg.valid = true ∧ (asking 0x14 State.reset).clients = []
      ∧ (asking 0x14 State.reset).rst = false ∧ (asking 0x14 State.reset).ready = true
      ∧ (asking 0x14 State.reset).host.valid = true
      ∧ 0x14 ≤ (Request.byte 0 (asking 0x14 State.reset).host.data).toNat
      ∧ 0x14 ≤ (Request.byte 0 (asking 0xFF State.reset).host.data).toNat := by decide

/-- StepRunsTheDecodedRequest. -/
theorem test_witness_step_request :
    (asking 0x12 State.reset).cfg.valid = true ∧ (asking 0x12 State.reset).clients = []
      ∧ (asking 0x12 State.reset).rst = false ∧ (asking 0x12 State.reset).ready = true
      ∧ (asking 0x12 State.reset).host.valid = true
      ∧ decode (asking 0x12 State.reset).host.data = .ok (.write 0) := by decide

/-- StepRunsTheWordAtTheLcd, the byte and the lone nibble. -/
theorem test_witness_step_lcd :
    (let s := State.reset.withFetchWord 16 0x00C;
      s.cfg.valid = true ∧ s.clients = [] ∧ s.rst = false ∧ s.busy = true ∧ s.tmr = 0
        ∧ s.expq = some ⟨1, true, .now⟩ ∧ s.uq = [.expSet ⟨1, true, .now⟩, .done 0]
        ∧ s.expander.ackNow = true
        ∧ eRises s.cfg.la s.expander.phys (s.expander.setLevel ⟨1, true, .now⟩).phys = true
        ∧ s.lcd.phase = .fourBitLow 0x0
        ∧ lineNibble s.cfg.la (s.expander.setLevel ⟨1, true, .now⟩).phys = 0xC
        ∧ decodeLcd (LcdWord.of false (0x0#4 ++ 0xC#4))
          = .ok (.lcdDisplayControl true false false))
    ∧ (let s := State.reset.withFetchWord 5 0x03;
      s.expander.ackNow = true ∧ s.lcd.phase = .eightBit
        ∧ eRises s.cfg.la s.expander.phys (s.expander.setLevel ⟨1, true, .now⟩).phys = true
        ∧ lineNibble s.cfg.la (s.expander.setLevel ⟨1, true, .now⟩).phys = 0x3
        ∧ decodeNibble (LoneNibble.of false 0x3) = .ok .lcdNibble8BitFunctionSet) := by decide

/-- MiswiredInstanceIsRefused: a line past 7, two equal lines. -/
theorem test_witness_miswired :
    (∃ l ∈ (⟨8, 1, 4, 5, 6, 7⟩ : LineAssignment).lines, 8 ≤ l)
      ∧ ¬ (⟨1, 1, 4, 5, 6, 7⟩ : LineAssignment).lines.Nodup := by decide

/-- An instance without a clock has no step (00_scope R8: CYC_PER_US is at least 1). -/
theorem test_no_clock :
    nextOf (step { State.reset with cfg := { resetConfig with cycPerUs := 0 } }) = none := by decide

/-- ForeignWriteOfAnOwnLineIsRefused. -/
theorem test_witness_foreign :
    let s := { State.reset with clients := [some ⟨7, true, .defer⟩] }
    s.cfg.valid = true ∧ s.clients = some ⟨7, true, .defer⟩ :: [] ∧ 7 ∈ s.cfg.la.lines := by decide

/-- RstReturnsTheBlockToReset. -/
theorem test_witness_rst :
    let s : State := { (busyWith [.wait 50, .done 0] after16x2) with rst := true }
    s.cfg.valid = true ∧ s.clients = [] ∧ s.rst = true := by decide

/-- InitStatesSliceTheBeginList: the first state and the last, at the ends of their ranges. -/
theorem test_witness_init_states :
    initStateAt 0 = some .power ∧ initStateAt 2 = some .power ∧ initStateAt 3 = some .coax1
      ∧ initStateAt 109 = some .clear ∧ initStateAt 110 = some .entry
      ∧ initStateAt 130 = some .entry ∧ initStateAt 131 = none := by decide

/-- The decoding clauses of the per-request obligations: a word with each of the opcodes. -/
theorem test_witness_opcode_bytes :
    Request.byte 0 0xFFFFFFFFFFFF03011000 = 0x00 ∧ Request.byte 0 0xAA01 = 0x01
      ∧ Request.byte 0 0xAA02 = 0x02 ∧ Request.byte 0 0xAA03 = 0x03 ∧ Request.byte 0 0xAA08 = 0x08
      ∧ Request.byte 0 0xAA09 = 0x09 ∧ Request.byte 0 0xAA0C = 0x0C ∧ Request.byte 0 0xAA0D = 0x0D
      ∧ Request.byte 0 0xAA0E = 0x0E ∧ Request.byte 0 0xAA0F = 0x0F ∧ Request.byte 0 0xAA10 = 0x10
      ∧ Request.byte 0 0xAA11 = 0x11 ∧ Request.byte 0 0xAA12 = 0x12
      ∧ Request.byte 0 0xAA13 = 0x13 := by decide

/-- BeginLeavesNoResidue: two different states, one configuration. -/
theorem test_witness_begin_residue :
    State.reset.cfg = after16x2.cfg ∧ State.reset ≠ after16x2
      ∧ (nextOf (exec (.begin 20 4 .dots5x8) State.reset)).isSome = true
      ∧ (nextOf (exec (.begin 20 4 .dots5x8) after16x2)).isSome = true := by decide

/-- DisplayTogglesFollowTheirRules, EntryTogglesFollowTheirRules, TogglePairRoundTrip. -/
theorem test_witness_toggles :
    after16x2.shv = true ∧ after16x2.dc = some 0x04 ∧ after16x2.em = some 0x02
      ∧ State.reset.shv = false := by decide

/-- SetCursorAddressesOrFaults: each clause at its boundary (rc = 0; r = 4; r = 0, 1, 2, 3). -/
theorem test_witness_setCursor :
    State.reset.shv = false
      ∧ (withGeometry 16 0 after16x2).shv = true ∧ (withGeometry 16 0 after16x2).rc = some 0
      ∧ (withGeometry 16 5 after16x2).roff = some ⟨0x00, 0x40, 0x10, 0x50⟩
      ∧ (5 : Byte) ≠ 0 ∧ (4 : Byte).toNat % (5 : Byte).toNat > 3
      ∧ (3 : Byte).toNat % (5 : Byte).toNat = 3 ∧ (2 : Byte).toNat % (5 : Byte).toNat = 2
      ∧ (1 : Byte).toNat % (5 : Byte).toNat = 1 ∧ (5 : Byte).toNat % (5 : Byte).toNat = 0 := by decide

/-- The frames: every instruction named in them has a next state. -/
theorem test_witness_frames :
    ([.clear, .home, .scrollDisplayLeft, .scrollDisplayRight, .createChar 0 [0, 0, 0, 0, 0, 0, 0, 0],
      .write 0, .command 0, .display, .noDisplay, .cursor, .noCursor, .blink, .noBlink, .leftToRight,
      .rightToLeft, .autoscroll, .noAutoscroll, .begin 16 2 .dots5x8, .setRowOffsets 0 0 0 0,
      .setCursor 0 0].all fun i => (nextOf (exec i after16x2)).isSome
        && (nextOf (exec i State.reset)).isSome) = true := by decide

/-- FrameOfLcdWords. -/
theorem test_witness_lcd_frame :
    decodeLcd 0x00C = .ok (.lcdDisplayControl true false false)
      ∧ (nextOf (exec (.lcdDisplayControl true false false) State.reset)).isSome = true
      ∧ decodeNibble 0x03 = .ok .lcdNibble8BitFunctionSet
      ∧ (nextOf (exec .lcdNibble8BitFunctionSet State.reset)).isSome = true := by decide

/-- A block with an operation to perform, presented or not, acknowledged or not. -/
def performing (expq : Option ExpOp) (acks : List Bool) (rest : Bool) : State :=
  { busyWith [now 0 true, .done 0] after16x2 with expq := expq, expander := ⟨0, 0, acks, rest⟩ }

/-- ExpSetIsPresentedThenPerformed (each of its cases) and HoldsRaiseNothing (a silent expander, a silent
host). -/
theorem test_witness_expSet :
    (let s := performing none [] true;
      s.cfg.valid = true ∧ s.clients = [] ∧ s.rst = false ∧ s.busy = true ∧ s.tmr = 0
        ∧ s.uq = [.expSet ⟨0, true, .now⟩, .done 0] ∧ s.expq = none)
    ∧ (performing (some ⟨0, true, .now⟩) [false] true).expander.ackNow = false
    ∧ (performing (some ⟨0, true, .now⟩) [] true).expander.ackNow = true
    ∧ (let s := performing (some ⟨0, true, .now⟩) [] false;
      s.expq = some ⟨0, true, .now⟩ ∧ s.expander.acks = [] ∧ s.expander.ackRest = false)
    ∧ (State.reset.busy = false ∧ State.reset.host.valid = false ∧ State.reset.tmr = 0) := by decide

/-- WaitLoadsTheTimer, TimerHoldsExactly at the end of its range, DoneCompletesTheRequest. -/
theorem test_witness_queue :
    (let s := busyWith [.wait 65535, .done 0] after16x2;
      s.cfg.valid = true ∧ s.clients = [] ∧ s.rst = false ∧ s.busy = true ∧ s.tmr = 0
        ∧ s.expq = none ∧ s.uq = .wait 65535 :: [.done 0])
    ∧ (let s : State := { (busyWith [.done 0] after16x2) with
          tmr := 65535, cfg := { resetConfig with cycPerUs := 16 } };
      s.cfg.valid = true ∧ s.pre = 0 ∧ 1048560 ≤ s.tmr.toNat * s.cfg.cycPerUs)
    ∧ (let s := busyWith [.done 1] after16x2;
      s.fault = .none ∧ s.tmr = 0 ∧ s.expq = none ∧ s.uq = .done 1 :: []) := by decide

/-- LoadedListCompletesInOrder: the list of a WRITE. -/
theorem test_witness_loaded_list :
    let s := busyWith (send resetConfig.la 0x41 true ++ [.done 1]) after16x2
    s.cfg.valid = true ∧ s.clients = [] ∧ s.rst = false ∧ s.busy = true ∧ s.fault = .none
      ∧ s.tmr = 0 ∧ s.expq = none ∧ s.expander.acks = [] ∧ s.expander.ackRest = true
      ∧ s.uq = send resetConfig.la 0x41 true ++ [.done 1] ∧ s.host.exhausted = true
      ∧ (send resetConfig.la 0x41 true).all
        (fun op => match op with | .done _ => false | _ => true) = true := by decide

/-- PortIsHeldUntilReady: a busy block, and a port with nothing on it. -/
theorem test_witness_port :
    (asking 0x01 (busyWith [.done 0] after16x2)).ready = false
      ∧ (nextOf (step (asking 0x01 (busyWith [.done 0] after16x2)))).isSome = true
      ∧ State.reset.host.valid = false ∧ (nextOf (step State.reset)).isSome = true := by decide

/-- The invariant in a configured, idle state with a request presented. -/
theorem test_witness_inv_idle (w : Request) : Inv (asking w after16x2) :=
  ⟨by rfl, by rfl, by rfl, by rfl, by rfl, Nat.zero_lt_one, by intro _; rfl⟩

/-- The invariant before any BEGIN, with a request presented. -/
theorem test_witness_inv_unconfigured (w : Request) : Inv (asking w State.reset) :=
  ⟨by rfl, by rfl, by rfl, by rfl, by rfl, Nat.zero_lt_one, by intro _; rfl⟩

/-- The invariant with RC = 0. -/
theorem test_witness_inv_no_rows (w : Request) : Inv (asking w (withGeometry 16 0 after16x2)) :=
  ⟨by rfl, by rfl, by rfl, by rfl, by rfl, Nat.zero_lt_one, by intro _; rfl⟩

/-- The invariant in the middle of a request, an operation outstanding. -/
theorem test_witness_inv_busy : Inv (performing (some ⟨0, true, .now⟩) [] true) :=
  ⟨by rfl, by rfl, by rfl, by rfl, by rfl, by decide, by intro _; contradiction⟩

/-- OnlyTheListedFaults: each of the three faults from a state with the invariant. -/
theorem test_witness_faults :
    faultAfter 0x14 after16x2 = some .illegalRequest ∧ after16x2.fault = .none
      ∧ faultAfter 0x03 State.reset = some .notConfigured
      ∧ faultAfter 0x10 (withGeometry 16 0 after16x2) = some .rowOutOfTable
      ∧ (asking 0x14 after16x2).rst = false := by decide

/-- FaultIsStickyUntilReset, with and without `rst`. -/
theorem test_witness_sticky :
    (nextOf (step { State.reset with fault := .rowOutOfTable })).isSome = true
      ∧ (nextOf (step { State.reset with fault := .rowOutOfTable, rst := true })).isSome = true := by
  decide

/-- InvariantKeptByEveryStep, CycleRefinesTheTraceRelation, ParametersNeverChange: a step from a state
with the invariant. -/
theorem test_witness_invariant_step :
    (nextOf (step (asking 0x01 after16x2))).isSome = true
      ∧ (nextOf (step (performing (some ⟨0, true, .now⟩) [] true))).isSome = true
      ∧ (performing (some ⟨0, true, .now⟩) [] true).rst = false := by decide

/-- InvariantMeansTheNextStepExists: a client on a line that is not the block's. -/
theorem test_witness_client_elsewhere :
    ∀ op, some op ∈ ([some ⟨3, true, .now⟩] : List (Option ExpOp)) →
      op.line ∉ resetConfig.la.lines := by
  intro op h
  simp only [List.mem_cons, List.not_mem_nil, or_false, Option.some.injEq] at h
  subst h
  decide

/-- ShadowsStayLegal: legal shadows in a state no run reaches (a completion count of 7). -/
theorem test_witness_legal :
    shadowsLegal (busyWith [.done 7] after16x2) = true
      ∧ (nextOf (step (busyWith [.done 7] after16x2))).isSome = true := by decide

/-- OnlyBeginConfigures: a BEGIN that changes FN, RC and SHV. -/
theorem test_witness_begin_changes :
    (nextOf (step (asking 0x021000 State.reset))).map
      (fun t => (decide (t.fn ≠ State.reset.fn), decide (t.shv ≠ State.reset.shv)))
      = some (true, true) ∧ State.reset.rst = false := by decide

/-- OtherLinesAreNeverStaged: the lines outside the assignment. -/
theorem test_witness_other_lines :
    2 ∉ resetConfig.la.lines ∧ 3 ∉ resetConfig.la.lines ∧ 8 ∉ resetConfig.la.lines
      ∧ (performing (some ⟨0, true, .now⟩) [] true).clients = [] := by decide

/-- BlockNeverLearnsFromTheLines: two states alike but for the lines and the LCD. -/
theorem test_witness_no_reads :
    let s := performing (some ⟨0, true, .now⟩) [] true
    let s' := { s with expander := ⟨0xFF, 0xFE, [], true⟩, lcd := resetLcd }
    SameBlock s s' ∧ SameInputs s s' ∧ s ≠ s' ∧ (nextOf (step s)).isSome = true
      ∧ (nextOf (step s')).isSome = true := by
  refine ⟨?_, ?_, by decide, by decide, by decide⟩
  · simp [SameBlock, SameShadows, SameQueue, SameTimer, SameFault]
  · simp [SameInputs, performing]

/-- LineLevelsAfterPrimitives, SendDeliversExactlyItsWord, RequestsKeepShadowsTrue,
CommandDriftsFromTheShadow: an LCD in step with the block. -/
theorem test_witness_in_step :
    after16x2.cfg.la.valid = true ∧ after16x2.cfg.valid = true ∧ EnableSettled after16x2
      ∧ LcdInStep after16x2 ∧ after16x2.lcd.phase = .fourBit ∧ shadowsLegal after16x2 = true
      ∧ after16x2.uq = [] ∧ (0x03 : Byte) &&& 0xF8 = 0 :=
  ⟨rfl, rfl, rfl, ⟨rfl, rfl, rfl, rfl⟩, rfl, rfl, rfl, rfl⟩

/-- RequestsKeepShadowsTrue: a request that is performed. -/
theorem test_witness_keep_shadows :
    decode 0x05 = .ok .cursor
      ∧ (match exec .cursor after16x2 with
        | .next t => (nextOf (performAll t.uq t)).isSome
        | _ => false) = true := by decide

/-- OtherClientsCannotCorruptASend: latch-now operations on line 3 between the nibbles' lines (V5). -/
theorem test_witness_shared :
    ([[⟨3, true, .now⟩], [], [⟨2, true, .defer⟩, ⟨3, false, .now⟩]] : List (List ExpOp)).all
      (fun gap => gap.all fun op => decide (op.line ∉ resetConfig.la.lines)) = true := by decide

/-- V5: a latch by another client before the fourth data line. -/
theorem test_shared_send :
    (nextOf (performAllShared [[], [], [], [], [⟨3, true, .now⟩]] (send resetConfig.la 0x28 false)
      after16x2)).map (fun t => t.lcd.taken) = some [insByte 0x28] := by decide

/-- SetLevelMeetsTheExpanderContract, at the last line. -/
theorem test_witness_setLevel :
    ((⟨0, 0, [], true⟩ : Expander).setLevel ⟨7, true, .defer⟩).staged = 0x80 ∧ 7 < 8 := by decide

end Sys2Proof.Tests
end

/-! # What a request leaves

One inversion lemma for every request that decodes: what it writes, what it loads, and what the
words it sends can do at the LCD. -/

section
namespace Sys2Proof.Machine

/-! ## Flags -/

/-- Setting a flag of a register sets no bit outside its flags. -/
theorem setFlag_legal {m r outside : Byte} (hm : m &&& outside = 0) (hr : r &&& outside = 0) :
    setFlag m r &&& outside = 0 := by
  apply BitVec.eq_of_getLsbD_eq
  intro i hi
  have hm := congrArg (·.getLsbD i) hm
  have hr := congrArg (·.getLsbD i) hr
  simp only [setFlag, BitVec.getLsbD_and, BitVec.getLsbD_or, Bool.and_or_distrib_right] at hm hr ⊢
  rw [hr, hm]
  simp

/-- Clearing a flag sets no bit at all. -/
theorem clearFlag_legal (m : Byte) {r outside : Byte} (hr : r &&& outside = 0) :
    clearFlag m r &&& outside = 0 := by
  rw [clearFlag, BitVec.and_assoc, BitVec.and_comm (~~~m), ← BitVec.and_assoc, hr]
  exact BitVec.zero_and

/-- FN' of BEGIN has no bit outside N and F. -/
theorem beginFunction_legal (one : Bool) (rows : Byte) (size : CharSize) :
    beginFunction one rows size &&& 0xF3 = 0 := by
  unfold beginFunction
  split <;> split <;> decide

/-! ## Words that keep the LCD's registers -/

/-- The bus phase and the three registers that the shadows copy. -/
def SameRegisters (l l' : Lcd) : Prop :=
  l'.phase = l.phase ∧ l'.fn = l.fn ∧ l'.dc = l.dc ∧ l'.em = l.em

/-- A word, as its register-select level and its byte, that leaves the LCD's bus phase and
registers. -/
def KeepsRegisters (w : Bool × Byte) : Prop :=
  ∀ s, ∃ l k, lcdRun w.1 w.2 s = .next { s with lcd := l, fresh := k } ∧ SameRegisters s.lcd l

/-- A byte that has a format is run as its instruction. -/
theorem lcdRun_of_decode {rs : Bool} {b : Byte} {i : Instr}
    (h : decodeLcd (LcdWord.of rs b) = .ok i) (s : State) : lcdRun rs b s = exec i s := by
  simp [lcdRun, h]

theorem decodeLcd_data (b : Byte) : decodeLcd (LcdWord.of true b) = .ok (.lcdWriteData b) := by
  simp [decodeLcd]

theorem decodeLcd_byteCgram (slot : Byte) : decodeLcd (LcdWord.of false (byteCgram slot))
    = .ok (.lcdSetCgramAddr ((LcdWord.of false (byteCgram slot)).extractLsb' 0 6)) := by
  revert slot; decide

theorem decodeLcd_byteDdram (addr : BitVec 7) :
    decodeLcd (LcdWord.of false (byteDdram addr)) = .ok (.lcdSetDdramAddr addr) := by
  revert addr; decide

theorem keepsRegisters_data (b : Byte) : KeepsRegisters (true, b) := fun s =>
  ⟨_, _, lcdRun_of_decode (decodeLcd_data b) s, rfl, rfl, rfl, rfl⟩

theorem keepsRegisters_byteCgram (slot : Byte) : KeepsRegisters (false, byteCgram slot) := fun s =>
  ⟨_, _, lcdRun_of_decode (decodeLcd_byteCgram slot) s, rfl, rfl, rfl, rfl⟩

theorem keepsRegisters_byteDdram (addr : BitVec 7) : KeepsRegisters (false, byteDdram addr) :=
  fun s => ⟨_, _, lcdRun_of_decode (decodeLcd_byteDdram addr) s, rfl, rfl, rfl, rfl⟩

theorem keepsRegisters_clear : KeepsRegisters (false, codeClear) := fun s =>
  ⟨_, _, lcdRun_of_decode (i := .lcdClearDisplay) (by decide) s, rfl, rfl, rfl, rfl⟩

theorem keepsRegisters_home : KeepsRegisters (false, codeHome) := fun s =>
  ⟨_, _, lcdRun_of_decode (i := .lcdReturnHome 0) (by decide) s, rfl, rfl, rfl, rfl⟩

theorem keepsRegisters_scrollLeft : KeepsRegisters (false, byteScrollLeft) := fun s =>
  ⟨_, _, lcdRun_of_decode (i := .lcdCursorDisplayShift true false 0) (by decide) s,
    rfl, rfl, rfl, rfl⟩

theorem keepsRegisters_scrollRight : KeepsRegisters (false, byteScrollRight) := fun s =>
  ⟨_, _, lcdRun_of_decode (i := .lcdCursorDisplayShift true true 0) (by decide) s,
    rfl, rfl, rfl, rfl⟩

/-! ## The effect of a request -/

/-- The SENDs of a list of words, in order. -/
def sendAll (la : LineAssignment) (ws : List (Bool × Byte)) : List MicroOp :=
  ws.flatMap fun w => send la w.2 w.1

/-- What a request leaves of the state `s` it is run in. -/
inductive RequestEffect (s : State) : Instr → State → Prop
  | fault (i : Instr) (c : FaultCode) : c ≠ .none → RequestEffect s i (faulted c s)
  | begin (cols rows : Byte) (size : CharSize) (fn : Byte) : fn &&& 0xF3 = 0 →
    RequestEffect s (.begin cols rows size)
      (accepted (beginList s.cfg.la fn beginDisplay beginEntry) 0
        (s.configure fn beginDisplay beginEntry rows (beginOffsets cols)))
  | displayFlag (i : Instr) (v v' : Byte) : s.shv = true → s.dc = some v →
    (v &&& 0xF8 = 0 → v' &&& 0xF8 = 0) →
    RequestEffect s i (accepted (cmd s.cfg.la (codeDisplay ||| v')) 0 (s.setDc v'))
  | entryFlag (i : Instr) (v v' : Byte) : s.shv = true → s.em = some v →
    (v &&& 0xFC = 0 → v' &&& 0xFC = 0) →
    RequestEffect s i (accepted (cmd s.cfg.la (codeEntry ||| v')) 0 (s.setEm v'))
  | rowOffsets (i : Instr) (table : RowOffsets) :
    RequestEffect s i (accepted [] 0 (s.setRoff table))
  | sends (i : Instr) (ws : List (Bool × Byte)) (settle : List MicroOp) (c : Byte) :
    settle = [] ∨ settle = [.wait tLong] → c = 0 ∨ c = 1 →
    21 * ws.length + settle.length ≤ 189 →
    ((∀ b, i ≠ .command b) → ∀ w ∈ ws, KeepsRegisters w) →
    RequestEffect s i (accepted (sendAll s.cfg.la ws ++ settle) c s)

/-- A request that sends one word by CMD or DATA. -/
theorem RequestEffect.send (s : State) (i : Instr) (rs : Bool) (b : Byte) (settle : List MicroOp)
    (c : Byte) (hsettle : settle = [] ∨ settle = [.wait tLong]) (hc : c = 0 ∨ c = 1)
    (hw : (∀ b, i ≠ .command b) → KeepsRegisters (rs, b)) :
    RequestEffect s i (accepted (Machine.send s.cfg.la b rs ++ settle) c s) := by
  have h := RequestEffect.sends (s := s) i [(rs, b)] settle c hsettle hc
    (by rcases hsettle with rfl | rfl <;> simp) (by simpa using hw)
  rwa [sendAll, List.flatMap_singleton] at h

/-- A toggle of DC that sets no bit outside the flags. -/
theorem toggleDc_effect (s : State) (i : Instr) {f : Byte → Byte}
    (hf : ∀ v, v &&& 0xF8 = 0 → f v &&& 0xF8 = 0) :
    ∃ t, toggleDc f s = .next t ∧ RequestEffect s i t := by
  rcases toggleDc_cases f s with ⟨v, hs, hv, h⟩ | ⟨-, h⟩
  · exact ⟨_, h, .displayFlag i v (f v) hs hv (hf v)⟩
  · exact ⟨_, h, .fault i _ (by simp)⟩

/-- A toggle of EM that sets no bit outside the flags. -/
theorem toggleEm_effect (s : State) (i : Instr) {f : Byte → Byte}
    (hf : ∀ v, v &&& 0xFC = 0 → f v &&& 0xFC = 0) :
    ∃ t, toggleEm f s = .next t ∧ RequestEffect s i t := by
  rcases toggleEm_cases f s with ⟨v, hs, hv, h⟩ | ⟨-, h⟩
  · exact ⟨_, h, .entryFlag i v (f v) hs hv (hf v)⟩
  · exact ⟨_, h, .fault i _ (by simp)⟩

/-- SET_CURSOR faults or sends a DDRAM address. -/
theorem execSetCursor_effect (col row : Byte) (s : State) (i : Instr) :
    ∃ t, execSetCursor col row s = .next t ∧ RequestEffect s i t := by
  unfold execSetCursor
  repeat' split
  · exact ⟨_, rfl, .fault i .rowOutOfTable (by simp)⟩
  · exact ⟨_, rfl, .send s i false _ [] 0 (.inl rfl) (.inl rfl) fun _ => keepsRegisters_byteDdram _⟩
  · exact ⟨_, rfl, .fault i .rowOutOfTable (by simp)⟩
  · exact ⟨_, rfl, .fault i .notConfigured (by simp)⟩

/-- CREATE_CHAR of eight rows sends a CGRAM address and eight data bytes. -/
theorem execCreateChar_effect (slot : Byte) {bitmap : List Byte} (hlen : bitmap.length = 8)
    (s : State) (i : Instr) :
    ∃ t, execCreateChar slot bitmap s = .next t ∧ RequestEffect s i t := by
  have h := RequestEffect.sends (s := s) i ((false, byteCgram slot) :: bitmap.map (true, ·)) [] 0
    (.inl rfl) (.inl rfl) (by simp [hlen]) fun _ w hw => by
      simp only [List.mem_cons, List.mem_map] at hw
      rcases hw with rfl | ⟨b, -, rfl⟩
      · exact keepsRegisters_byteCgram slot
      · exact keepsRegisters_data b
  rw [List.append_nil, sendAll, List.flatMap_cons, List.flatMap_map] at h
  exact ⟨_, rfl, h⟩

/-- Every request that decodes has one of these effects, and never stops the machine. -/
theorem exec_effect {w : Request} {i : Instr} (h : decode w = .ok i) (s : State) :
    ∃ t, exec i s = .next t ∧ RequestEffect s i t := by
  simp only [decode] at h
  split at h
  case h_1 => cases h; exact ⟨_, rfl, .begin _ _ _ _ (beginFunction_legal _ _ _)⟩
  case h_2 =>
    cases h
    exact ⟨_, rfl, .send s _ false _ _ 0 (.inr rfl) (.inl rfl) fun _ => keepsRegisters_clear⟩
  case h_3 =>
    cases h
    exact ⟨_, rfl, .send s _ false _ _ 0 (.inr rfl) (.inl rfl) fun _ => keepsRegisters_home⟩
  case h_4 => cases h; exact toggleDc_effect s _ fun v => setFlag_legal (by decide)
  case h_5 => cases h; exact toggleDc_effect s _ fun v => clearFlag_legal _
  case h_6 => cases h; exact toggleDc_effect s _ fun v => setFlag_legal (by decide)
  case h_7 => cases h; exact toggleDc_effect s _ fun v => clearFlag_legal _
  case h_8 => cases h; exact toggleDc_effect s _ fun v => setFlag_legal (by decide)
  case h_9 => cases h; exact toggleDc_effect s _ fun v => clearFlag_legal _
  case h_10 => cases h; exact toggleEm_effect s _ fun v => setFlag_legal (by decide)
  case h_11 => cases h; exact toggleEm_effect s _ fun v => clearFlag_legal _
  case h_12 => cases h; exact toggleEm_effect s _ fun v => setFlag_legal (by decide)
  case h_13 => cases h; exact toggleEm_effect s _ fun v => clearFlag_legal _
  case h_14 =>
    cases h
    exact ⟨_, rfl, .send s _ false _ [] 0 (.inl rfl) (.inl rfl) fun _ => keepsRegisters_scrollLeft⟩
  case h_15 =>
    cases h
    exact ⟨_, rfl, .send s _ false _ [] 0 (.inl rfl) (.inl rfl) fun _ => keepsRegisters_scrollRight⟩
  case h_16 => cases h; exact ⟨_, rfl, .rowOffsets _ _⟩
  case h_17 => cases h; exact execSetCursor_effect _ _ s _
  case h_18 => cases h; exact execCreateChar_effect _ rfl s _
  case h_19 =>
    cases h
    exact ⟨_, rfl, .send s _ true _ [] 1 (.inl rfl) (.inr rfl) fun _ => keepsRegisters_data _⟩
  case h_20 =>
    cases h
    exact ⟨_, rfl, .send s _ false _ [] 0 (.inl rfl) (.inl rfl) fun hi => absurd rfl (hi _)⟩
  case h_21 => cases h

/-- Everything the cycle that takes a request can do: the effect of the decoded instruction, or the
fault of an unassigned opcode; then the port moves on. -/
theorem acceptCycle_effect {s t : State} (h : acceptCycle s = .next t) :
    ∃ u, t = u.releasePort ∧ ((∃ i, decode s.host.data = .ok i ∧ RequestEffect s i u)
      ∨ u = faulted .illegalRequest s) := by
  unfold acceptCycle at h
  obtain ⟨u, hu, rfl⟩ := mapNext_eq_next.1 h
  refine ⟨u, rfl, ?_⟩
  split at hu
  · next i hi =>
    obtain ⟨v, hv, he⟩ := exec_effect hi s
    rw [hv] at hu
    cases hu
    exact .inl ⟨i, hi, he⟩
  · cases hu
    exact .inr rfl

end Sys2Proof.Machine
end

/-! # What a step keeps: the parameters, the port, the shadows, the invariant -/

section
namespace Sys2Proof.Machine

/-! ## The queue -/

/-- Micro-operations on the block's lines with the legal waits, and one final `Done`. -/
theorem queueOk_append_done {la : LineAssignment} {ops : List MicroOp} {c : Byte}
    (hops : ops.all (microOpOk la) = true) (hc : c = 0 ∨ c = 1) :
    queueOk la (ops ++ [.done c]) = true := by
  induction ops with
  | nil => simpa [queueOk] using hc
  | cons op ops ih =>
    rw [List.all_cons, Bool.and_eq_true] at hops
    obtain ⟨hop, hrest⟩ := hops
    cases op with
    | expSet op => simpa [queueOk, hop] using ih hrest
    | wait us => simpa [queueOk, hop] using ih hrest
    | done c => simp [microOpOk] at hop

/-- A well-formed queue without its head is well formed, unless the head is the `Done`. -/
theorem queueOk_tail {la : LineAssignment} {op : MicroOp} {rest : List MicroOp}
    (hop : ∀ c, op ≠ .done c) (h : queueOk la (op :: rest) = true) :
    microOpOk la op = true ∧ queueOk la rest = true := by
  cases op with
  | expSet op => simpa [queueOk] using h
  | wait us => simpa [queueOk] using h
  | done c => exact absurd rfl (hop c)

theorem microOpOk_nib (la : LineAssignment) (v : Nibble) :
    (nib la v).all (microOpOk la) = true := by
  simp [nib, pulse, stageLine, setLine, microOpOk, LineAssignment.lines, legalWaits, tEnLow,
    tEnHigh, tCmd]

theorem microOpOk_send (la : LineAssignment) (b : Byte) (rs : Bool) :
    (send la b rs).all (microOpOk la) = true := by
  rw [send, List.all_append, List.all_append, microOpOk_nib, microOpOk_nib]
  simp [setLine, microOpOk, LineAssignment.lines]

theorem microOpOk_sendAll (la : LineAssignment) (ws : List (Bool × Byte)) :
    (sendAll la ws).all (microOpOk la) = true := by
  simp only [sendAll, List.all_flatMap, List.all_eq_true (l := ws)]
  exact fun w _ => microOpOk_send la w.2 w.1

theorem microOpOk_beginList (la : LineAssignment) (fn dc em : Byte) :
    (beginList la fn dc em).all (microOpOk la) = true := by
  simp only [beginList, initPower, initCoax12, initCoax3, init4Bit, initFunc, initDisp, initClear,
    initEntry, cmd, List.all_append, microOpOk_nib, microOpOk_send]
  simp [setLine, microOpOk, LineAssignment.lines, legalWaits, tPower, tCoax12, tCoax3, tLong]

theorem length_sendAll (la : LineAssignment) (ws : List (Bool × Byte)) :
    (sendAll la ws).length = 21 * ws.length := by
  induction ws with
  | nil => rfl
  | cons w ws ih =>
    have hw : (send la w.2 w.1).length = 21 := rfl
    rw [sendAll, List.flatMap_cons, List.length_append, hw, List.length_cons]
    have : (ws.flatMap fun w => send la w.2 w.1).length = 21 * ws.length := ih
    omega

/-- A busy block with a well-formed queue that fits meets the invariant's clause on it. -/
theorem queueMatchesBusy_of_busy {s : State} (hb : s.busy = true)
    (hq : queueOk s.cfg.la s.uq = true ∧ s.uq.length ≤ 190) : queueMatchesBusy s = true := by
  simp [queueMatchesBusy, hb, hq]

/-! ## The invariant, one update of the state at a time -/

namespace Inv

variable {s : State}

/-- The invariant does not speak of the other clients, the expander, the LCD or the free values. -/
theorem served (h : Inv s) (e : Expander) (l : Lcd) (k : Nat) : Inv (s.served e l k) :=
  ⟨h.valid, h.legal, h.configured, h.queue, h.outstanding, h.prescaler, h.faultedIdle⟩

/-- Nor of the host's port. -/
theorem releasePort (h : Inv s) : Inv s.releasePort :=
  ⟨h.valid, h.legal, h.configured, h.queue, h.outstanding, h.prescaler, h.faultedIdle⟩

theorem cycPerUs_pos (h : Inv s) : 0 < s.cfg.cycPerUs := Nat.zero_lt_of_lt h.prescaler

/-- A busy block holds a well-formed queue. -/
theorem busyQueue (h : Inv s) (hb : s.busy = true) :
    queueOk s.cfg.la s.uq = true ∧ s.uq.length ≤ 190 := by
  simpa [queueMatchesBusy, hb] using h.queue

/-- An idle block has an empty queue, a stopped timer and no outstanding operation. -/
theorem idle (h : Inv s) (hb : s.busy = false) : s.uq = [] ∧ s.tmr = 0 ∧ s.expq = none := by
  simpa [queueMatchesBusy, hb, and_assoc] using h.queue

/-- While the timer counts, the block is busy and no operation is outstanding. -/
theorem of_tmr_ne_zero (h : Inv s) (ht : s.tmr ≠ 0) : s.busy = true ∧ s.expq = none := by
  constructor
  · by_contra hb
    exact ht (h.idle (by simpa using hb)).2.1
  · have ho := h.outstanding
    unfold outstandingIsHead at ho
    split at ho
    · assumption
    · exact absurd (of_decide_eq_true (Bool.and_eq_true_iff.1 ho).2) ht
    · cases ho

theorem resetBlock (h : Inv s) : Inv s.resetBlock :=
  ⟨h.valid, rfl, rfl, rfl, rfl, h.cycPerUs_pos, fun _ => rfl⟩

theorem tick (h : Inv s) (ht : s.tmr ≠ 0) : Inv s.tick := by
  obtain ⟨hb, he⟩ := h.of_tmr_ne_zero ht
  have hq := h.busyQueue hb
  have hp := h.prescaler
  unfold State.tick
  split
  · exact ⟨h.valid, h.legal, h.configured, queueMatchesBusy_of_busy hb hq,
      by simp [outstandingIsHead, he], h.cycPerUs_pos, h.faultedIdle⟩
  · exact ⟨h.valid, h.legal, h.configured, queueMatchesBusy_of_busy hb hq,
      by simp [outstandingIsHead, he], by dsimp only; omega, h.faultedIdle⟩

theorem present (h : Inv s) (hb : s.busy = true) (ht : s.tmr = 0) {op : ExpOp}
    {rest : List MicroOp} (hu : s.uq = .expSet op :: rest) : Inv (s.present op) := by
  exact ⟨h.valid, h.legal, h.configured, queueMatchesBusy_of_busy hb (h.busyQueue hb),
    by simp [outstandingIsHead, hu, ht], h.prescaler, h.faultedIdle⟩

theorem popAck (h : Inv s) : Inv s.popAck :=
  ⟨h.valid, h.legal, h.configured, h.queue, h.outstanding, h.prescaler, h.faultedIdle⟩

/-- Events are not part of the invariant. -/
theorem emit (h : Inv s) (e : Event) : Inv (s.emit e) :=
  ⟨h.valid, h.legal, h.configured, h.queue, h.outstanding, h.prescaler, h.faultedIdle⟩

/-- Where the head of the queue is no `Done`, the queue without it is well formed. -/
theorem queue_tail (h : Inv s) (hb : s.busy = true) {op : MicroOp} {rest : List MicroOp}
    (hu : s.uq = op :: rest) (hop : ∀ c, op ≠ .done c) :
    queueOk s.cfg.la s.uq.tail = true ∧ s.uq.tail.length ≤ 190 := by
  obtain ⟨hq, hl⟩ := h.busyQueue hb
  rw [hu] at hq hl
  rw [hu, List.tail_cons]
  exact ⟨(queueOk_tail hop hq).2, by rw [List.length_cons] at hl; omega⟩

theorem startWait (h : Inv s) (hb : s.busy = true) (he : s.expq = none) {us : BitVec 16}
    {rest : List MicroOp} (hu : s.uq = .wait us :: rest) : Inv (s.startWait us) := by
  exact ⟨h.valid, h.legal, h.configured,
    queueMatchesBusy_of_busy hb (h.queue_tail hb hu (by simp)),
    by simp [outstandingIsHead, he], h.cycPerUs_pos, h.faultedIdle⟩

theorem finishSet (h : Inv s) (hb : s.busy = true) {op : ExpOp} {rest : List MicroOp}
    (hu : s.uq = .expSet op :: rest) : Inv s.finishSet := by
  exact ⟨h.valid, h.legal, h.configured,
    queueMatchesBusy_of_busy hb (h.queue_tail hb hu (by simp)),
    rfl, h.prescaler, h.faultedIdle⟩

theorem finish (h : Inv s) (ht : s.tmr = 0) (he : s.expq = none) : Inv s.finish :=
  ⟨h.valid, h.legal, h.configured, by simp [queueMatchesBusy, ht, he],
    by simp [outstandingIsHead, he], h.prescaler, fun _ => rfl⟩

theorem faulted (h : Inv s) (hb : s.busy = false) (c : FaultCode) : Inv (faulted c s) :=
  ⟨h.valid, h.legal, h.configured, h.queue, h.outstanding, h.prescaler, fun _ => hb⟩

end Inv

/-! ## What an accepted request leaves -/

/-- Legal shadows, register by register. -/
theorem shadowsLegal_iff (s : State) : shadowsLegal s = true ↔ (∀ v, s.fn = some v → v &&& 0xF3 = 0)
    ∧ (∀ v, s.dc = some v → v &&& 0xF8 = 0) ∧ ∀ v, s.em = some v → v &&& 0xFC = 0 := by
  simp only [shadowsLegal, Bool.and_eq_true, Option.all_eq_true, decide_eq_true_eq, and_assoc]

/-- A request keeps legal shadows legal. -/
theorem RequestEffect.shadowsLegal {s t : State} {i : Instr} (h : RequestEffect s i t)
    (hs : shadowsLegal s = true) : shadowsLegal t = true := by
  have hs' := hs
  rw [shadowsLegal_iff] at hs' ⊢
  obtain ⟨hfn, hdc, hem⟩ := hs'
  cases h with
  | fault | rowOffsets | sends => exact ⟨hfn, hdc, hem⟩
  | begin cols rows size fn hlegal =>
    refine ⟨?_, ?_, ?_⟩ <;> rintro _ ⟨⟩
    · exact hlegal
    · decide
    · decide
  | displayFlag _ v v' _ hv hlegal =>
    refine ⟨hfn, ?_, hem⟩
    rintro _ ⟨⟩
    exact hlegal (hdc v hv)
  | entryFlag _ v v' _ hv hlegal =>
    refine ⟨hfn, hdc, ?_⟩
    rintro _ ⟨⟩
    exact hlegal (hem v hv)

/-- A request keeps SHV telling what is configured. -/
theorem RequestEffect.shadowsMatchShv {s t : State} {i : Instr} (h : RequestEffect s i t)
    (hs : shadowsMatchShv s = true) : shadowsMatchShv t = true := by
  cases h with
  | fault | sends => exact hs
  | begin => simp [Machine.shadowsMatchShv]
  | rowOffsets _ table =>
    cases hv : s.shv <;> simp_all [Machine.shadowsMatchShv]
  | displayFlag _ v v' hv => simp_all [Machine.shadowsMatchShv]
  | entryFlag _ v v' hv => simp_all [Machine.shadowsMatchShv]

/-- A request faults, or loads a well-formed queue and leaves the timer, EXPQ, the fault registers
and the parameters. -/
theorem RequestEffect.loads {s t : State} {i : Instr} (h : RequestEffect s i t) :
    (∃ c, c ≠ .none ∧ t = Machine.faulted c s)
    ∨ (t.busy = true ∧ queueOk s.cfg.la t.uq = true ∧ t.uq.length ≤ 190 ∧ SameTimer s t
      ∧ SameFault s t ∧ t.cfg = s.cfg) := by
  cases h with
  | fault _ c hc => exact .inl ⟨c, hc, rfl⟩
  | begin =>
    exact .inr ⟨rfl, queueOk_append_done (microOpOk_beginList _ _ _ _) (.inl rfl),
      (show 132 ≤ 190 by decide), ⟨rfl, rfl, rfl⟩, ⟨rfl, rfl⟩, rfl⟩
  | displayFlag | entryFlag =>
    exact .inr ⟨rfl, queueOk_append_done (microOpOk_send _ _ _) (.inl rfl),
      (show 22 ≤ 190 by decide), ⟨rfl, rfl, rfl⟩, ⟨rfl, rfl⟩, rfl⟩
  | rowOffsets =>
    exact .inr ⟨rfl, by simp [queueOk], by simp, ⟨rfl, rfl, rfl⟩, ⟨rfl, rfl⟩, rfl⟩
  | sends _ ws settle c hsettle hc hlen =>
    have hops : (sendAll s.cfg.la ws ++ settle).all (microOpOk s.cfg.la) = true := by
      rw [List.all_append, microOpOk_sendAll]
      rcases hsettle with rfl | rfl <;> simp [microOpOk, legalWaits, tLong]
    refine .inr ⟨rfl, queueOk_append_done hops hc, ?_, ⟨rfl, rfl, rfl⟩, ⟨rfl, rfl⟩, rfl⟩
    simp only [accepted_uq, List.length_append, length_sendAll, List.length_singleton]
    omega

/-- What `req_ready` says. -/
theorem ready_iff (s : State) : s.ready = true ↔ s.busy = false ∧ s.fault = .none := by
  simp [State.ready]

/-- A request run in a ready block keeps the invariant. -/
theorem Inv.effect {s t : State} {i : Instr} (h : Inv s) (hr : s.ready = true)
    (he : RequestEffect s i t) : Inv t := by
  obtain ⟨hb, hf⟩ := (ready_iff s).1 hr
  rcases he.loads with ⟨c, -, rfl⟩ | ⟨hbusy, hq, hl, ⟨-, hpre, hexpq⟩, ⟨hfault, -⟩, hcfg⟩
  · exact h.faulted hb c
  · obtain ⟨-, -, hidle⟩ := h.idle hb
    refine ⟨hcfg ▸ h.valid, he.shadowsLegal h.legal, he.shadowsMatchShv h.configured,
      queueMatchesBusy_of_busy hbusy ⟨hcfg ▸ hq, hl⟩, ?_, ?_, ?_⟩
    · simp [outstandingIsHead, hexpq, hidle]
    · rw [hpre, hcfg]
      exact h.prescaler
    · exact fun hne => absurd (hfault.trans hf) hne

/-- The cycle that takes a request from the port of a ready block keeps the invariant. -/
theorem Inv.acceptCycle {s t : State} (h : Inv s) (hr : s.ready = true)
    (ha : acceptCycle s = .next t) : Inv t := by
  obtain ⟨u, rfl, ⟨i, -, he⟩ | rfl⟩ := acceptCycle_effect ha
  · exact (h.effect hr he).releasePort
  · exact (h.faulted ((ready_iff s).1 hr).1 _).releasePort

/-! ## Outside acceptance and reset -/

/-- What a step that neither resets the block nor takes a request leaves: the shadows, the fault
registers, the parameters and the port. -/
theorem step_outside {s t : State} (h : step s = .next t) (hr : s.rst = false)
    (hp : s.ready = false ∨ s.host.valid = false) :
    SameShadows s t ∧ SameFault s t ∧ t.cfg = s.cfg ∧ t.host = s.host ∧ t.rst = s.rst := by
  obtain ⟨-, e, l, k, -, -, -, ⟨hr', -⟩ | ⟨-, hready, hvalid, -⟩ | ⟨-, -, hq⟩⟩ := step_cases h
  · simp [hr] at hr'
  · simp [hready, hvalid] at hp
  · rcases hq with ⟨-, rfl⟩ | ⟨-, -, rfl⟩ | ⟨-, -, ⟨_, _, -, -, rfl⟩ | ⟨_, _, -, -, rfl⟩
      | ⟨_, _, -, -, rfl⟩ | ⟨_, _, _, -, -, -, rfl⟩ | ⟨_, _, _, _, _, -, -, -, rfl⟩⟩
    · unfold State.tick
      split <;> exact ⟨⟨rfl, rfl, rfl, rfl, rfl, rfl⟩, ⟨rfl, rfl⟩, rfl, rfl, rfl⟩
    all_goals exact ⟨⟨rfl, rfl, rfl, rfl, rfl, rfl⟩, ⟨rfl, rfl⟩, rfl, rfl, rfl⟩

/-- A step is a reset cycle, the acceptance of a request, or one of the cycles of `step_outside`. -/
theorem step_kinds {s t : State} (h : step s = .next t) :
    (s.rst = true ∧ ∃ e l k, t = (s.served e l k).resetBlock)
    ∨ (s.rst = false ∧ s.ready = true ∧ s.host.valid = true
      ∧ ∃ e l k, acceptCycle (s.served e l k) = .next t)
    ∨ (s.rst = false ∧ (s.ready = false ∨ s.host.valid = false)) := by
  obtain ⟨-, e, l, k, -, -, -, ⟨hr, e', l', k', -, -, ht⟩ | ⟨hr, hready, hvalid, ha⟩
    | ⟨hr, hp, -⟩⟩ := step_cases h
  · exact .inl ⟨hr, e', l', k', ht⟩
  · exact .inr (.inl ⟨hr, hready, hvalid, e, l, k, ha⟩)
  · exact .inr (.inr ⟨hr, hp⟩)

end Sys2Proof.Machine
end

/-! # The state's obligations -/

section
open Sys2Proof Sys2Proof.Machine

/-- Settles O46, one case of `step_cases` and one lemma on the invariant at a time. -/
theorem invariantKeptByEveryStep : Obligations.InvariantKeptByEveryStep := by
  unfold Obligations.InvariantKeptByEveryStep
  intro s t hinv h
  obtain ⟨-, e, l, k, -, -, -, ⟨-, e', l', k', -, -, rfl⟩ | ⟨-, hr, -, ha⟩ | ⟨-, -, hq⟩⟩ :=
    step_cases h
  · exact (hinv.served e' l' k').resetBlock
  · exact (hinv.served e l k).acceptCycle hr ha
  · have hserved := hinv.served e l k
    rcases hq with ⟨ht, rfl⟩ | ⟨-, -, rfl⟩ | ⟨ht, hb, ⟨op, rest, -, hu, rfl⟩
      | ⟨us, rest, he, hu, rfl⟩ | ⟨c, rest, he, -, rfl⟩ | ⟨op, op', rest, -, -, -, rfl⟩
      | ⟨op, op', rest, l', k', -, hu, -, rfl⟩⟩
    · exact hserved.tick ht
    · exact hserved
    · exact hserved.present hb ht hu
    · exact (hserved.startWait hb he hu).emit _
    · exact (hserved.finish ht he).emit _
    · exact hserved.popAck
    · exact ((hinv.served _ l' k').finishSet hb hu).emit _

/-- Settles O35: an LCD word and a lone nibble change the LCD and the free-value counter alone. -/
theorem frameOfLcdWords : Obligations.FrameOfLcdWords := by
  unfold Obligations.FrameOfLcdWords
  intro i s t hi h
  obtain ⟨l, k, he⟩ : ∃ l k, exec i s = .next { s with lcd := l, fresh := k } := by
    rcases hi with ⟨w, hw⟩ | ⟨w, hw⟩
    · exact exec_of_decodeLcd hw s
    · exact exec_of_decodeNibble hw s
  rw [he] at h
  cases h
  simp [SameBlock, SameShadows, SameQueue, SameTimer, SameFault, SameInputs]

/-- Settles O42: a block that takes no request leaves the port, and so does a reset cycle. -/
theorem portIsHeldUntilReady : Obligations.PortIsHeldUntilReady := by
  unfold Obligations.PortIsHeldUntilReady
  intro s t hp h
  rcases step_kinds h with ⟨-, e, l, k, rfl⟩ | ⟨-, hready, hvalid, -⟩ | ⟨hr, -⟩
  · rfl
  · simp [hready, hvalid] at hp
  · exact (step_outside h hr hp).2.2.2.1

/-- Settles O48: reset clears the shadows, a request writes legal ones, nothing else writes them. -/
theorem shadowsStayLegal : Obligations.ShadowsStayLegal := by
  unfold Obligations.ShadowsStayLegal
  intro s t hs h
  rcases step_kinds h with ⟨-, e, l, k, rfl⟩ | ⟨-, -, -, e, l, k, ha⟩ | ⟨hr, hp⟩
  · rfl
  · have hserved : shadowsLegal (s.served e l k) = true := hs
    obtain ⟨u, rfl, ⟨i, -, he⟩ | rfl⟩ := acceptCycle_effect ha
    · exact he.shadowsLegal hserved
    · exact hserved
  · obtain ⟨⟨-, hfn, hdc, hem, -, -⟩, -⟩ := step_outside h hr hp
    rw [shadowsLegal_iff] at hs ⊢
    rwa [hfn, hdc, hem]

/-- Settles O49: of the effects of a request, BEGIN's alone writes FN, RC or SHV. -/
theorem onlyBeginConfigures : Obligations.OnlyBeginConfigures := by
  unfold Obligations.OnlyBeginConfigures
  intro s t hrst h hchange
  rcases step_kinds h with ⟨hr, -⟩ | ⟨-, hready, hvalid, e, l, k, ha⟩ | ⟨hr, hp⟩
  · simp [hrst] at hr
  · refine ⟨hready, hvalid, ?_⟩
    obtain ⟨u, rfl, ⟨i, hi, he⟩ | rfl⟩ := acceptCycle_effect ha
    · cases he with
      | begin cols rows size => exact ⟨rfl, cols, rows, size, hi⟩
      | fault | displayFlag | entryFlag | rowOffsets | sends =>
        simp [State.releasePort, State.served] at hchange
    · simp [State.releasePort, State.served] at hchange
  · obtain ⟨⟨hshv, hfn, -, -, hrc, -⟩, -⟩ := step_outside h hr hp
    simp [hshv, hfn, hrc] at hchange

/-- Settles O50, by the kinds of step. -/
theorem parametersNeverChange : Obligations.ParametersNeverChange := by
  unfold Obligations.ParametersNeverChange
  intro s t h
  rcases step_kinds h with ⟨-, e, l, k, rfl⟩ | ⟨-, -, -, e, l, k, ha⟩ | ⟨hr, hp⟩
  · rfl
  · rcases acceptCycle_cases ha with ⟨c, -, rfl⟩ | ⟨_, _, _, _, _, _, _, _, rfl⟩ <;> rfl
  · exact (step_outside h hr hp).2.2.1

/-- Settles O10, clause by clause from the reset state's definition. -/
theorem resetLeavesR129 : Obligations.ResetLeavesR129 := by
  unfold Obligations.ResetLeavesR129
  decide

/-- Settles O45: the reset state is valid, unconfigured, idle and unfaulted. -/
theorem invariantAtReset : Obligations.InvariantAtReset := by
  unfold Obligations.InvariantAtReset
  exact ⟨rfl, rfl, rfl, rfl, rfl, Nat.zero_lt_one, fun _ => rfl⟩

end

/-! # The block has no read channel

A view of the state that hides the expander's lines, the LCD and the free values; every part of a
cycle does the same, seen through it, on a state and on its view. -/

section
namespace Sys2Proof.Machine

/-- The block and its inputs: the expander's lines, the LCD and the free values at fixed values. -/
def State.blind (s : State) : State :=
  { s with
    expander := ⟨0, 0, s.expander.acks, s.expander.ackRest⟩
    lcd := resetLcd
    fresh := 0 }

@[simp] theorem State.blind_cfg (s : State) : s.blind.cfg = s.cfg := rfl
@[simp] theorem State.blind_shv (s : State) : s.blind.shv = s.shv := rfl
@[simp] theorem State.blind_dc (s : State) : s.blind.dc = s.dc := rfl
@[simp] theorem State.blind_em (s : State) : s.blind.em = s.em := rfl
@[simp] theorem State.blind_rc (s : State) : s.blind.rc = s.rc := rfl
@[simp] theorem State.blind_roff (s : State) : s.blind.roff = s.roff := rfl
@[simp] theorem State.blind_busy (s : State) : s.blind.busy = s.busy := rfl
@[simp] theorem State.blind_uq (s : State) : s.blind.uq = s.uq := rfl
@[simp] theorem State.blind_tmr (s : State) : s.blind.tmr = s.tmr := rfl
@[simp] theorem State.blind_pre (s : State) : s.blind.pre = s.pre := rfl
@[simp] theorem State.blind_expq (s : State) : s.blind.expq = s.expq := rfl
@[simp] theorem State.blind_rst (s : State) : s.blind.rst = s.rst := rfl
@[simp] theorem State.blind_host (s : State) : s.blind.host = s.host := rfl
@[simp] theorem State.blind_clients (s : State) : s.blind.clients = s.clients := rfl
@[simp] theorem State.blind_ready (s : State) : s.blind.ready = s.ready := rfl
@[simp] theorem State.blind_ackNow (s : State) :
    s.blind.expander.ackNow = s.expander.ackNow := rfl

/-- The view is exactly the block and the inputs. -/
theorem blind_eq_iff (s t : State) : s.blind = t.blind ↔ SameBlock s t ∧ SameInputs s t := by
  constructor
  · intro h
    simp only [State.blind, State.mk.injEq, Expander.mk.injEq] at h
    simp only [SameBlock, SameShadows, SameQueue, SameTimer, SameFault, SameInputs]
    grind
  · rintro ⟨⟨⟨h1, h2, h3, h4, h5, h6⟩, ⟨h7, h8⟩, ⟨h9, h10, h11⟩, ⟨h12, h13⟩, h14⟩,
      h15, h16, h17, h18, h19, h20⟩
    simp [State.blind, *]

/-- `f` cannot tell a state from its view: seen through the view, it does the same on both. -/
def IgnoresLines (f : State → Outcome) : Prop :=
  ∀ s, mapNext State.blind (f s.blind) = mapNext State.blind (f s)

theorem IgnoresLines.andThen {f g : State → Outcome} (hf : IgnoresLines f) (hg : IgnoresLines g) :
    IgnoresLines fun s => andThen (f s) g := by
  intro s
  have h := hf s
  cases hu : f s.blind <;> cases hv : f s <;> rw [hu, hv] at h
  case next.next u v =>
    have huv : u.blind = v.blind := by injection h
    simp only [hu, hv, andThen_next]
    rw [← hg u, huv, hg v]
  all_goals simp_all [mapNext, Machine.andThen]

/-- An expander operation is invisible. -/
theorem performOp_blind (op : ExpOp) (s : State) :
    mapNext State.blind (performOp op s) = .next s.blind := by
  obtain ⟨l, k, h⟩ := performOp_next op s
  rw [h]
  rfl

theorem ignoresLines_serveClients : IgnoresLines serveClients := by
  intro s
  unfold serveClients
  rw [State.blind_clients, State.blind_cfg]
  split
  · rfl
  · rfl
  · split
    · rfl
    · rw [performOp_blind, performOp_blind]
      rfl

theorem ignoresLines_resetCycle : IgnoresLines resetCycle := by
  intro s
  obtain ⟨e, l, k, h, ha, har⟩ := resetCycle_next s
  obtain ⟨e', l', k', h', ha', har'⟩ := resetCycle_next s.blind
  rw [h, h']
  simp [State.blind, ha, har, ha', har']

theorem toggleDc_blind (f : Byte → Byte) (s : State) :
    toggleDc f s.blind = mapNext State.blind (toggleDc f s) := by
  unfold toggleDc
  rw [State.blind_shv, State.blind_dc]
  split <;> rfl

theorem toggleEm_blind (f : Byte → Byte) (s : State) :
    toggleEm f s.blind = mapNext State.blind (toggleEm f s) := by
  unfold toggleEm
  rw [State.blind_shv, State.blind_em]
  split <;> rfl

theorem execSetCursor_blind (col row : Byte) (s : State) :
    execSetCursor col row s.blind = mapNext State.blind (execSetCursor col row s) := by
  unfold execSetCursor
  rw [State.blind_shv, State.blind_rc, State.blind_roff]
  repeat' split
  all_goals rfl

/-- What a request does is the same without the lines. -/
theorem exec_decode_blind {w : Request} {i : Instr} (h : decode w = .ok i) (s : State) :
    exec i s.blind = mapNext State.blind (exec i s) := by
  simp only [decode] at h
  split at h
  case h_4 | h_5 | h_6 | h_7 | h_8 | h_9 => cases h; exact toggleDc_blind _ s
  case h_10 | h_11 | h_12 | h_13 => cases h; exact toggleEm_blind _ s
  case h_17 => cases h; exact execSetCursor_blind _ _ s
  case h_21 => cases h
  all_goals cases h; rfl

theorem ignoresLines_acceptCycle : IgnoresLines acceptCycle := by
  have port : ∀ o : Outcome, mapNext State.blind (mapNext State.releasePort (mapNext State.blind o))
      = mapNext State.blind (mapNext State.releasePort o) := by
    intro o
    cases o <;> rfl
  intro s
  unfold acceptCycle
  rw [State.blind_host]
  cases h : decode s.host.data with
  | ok i => simp only [exec_decode_blind h s, port]
  | error => rfl

theorem ignoresLines_queueCycle : IgnoresLines queueCycle := by
  intro s
  unfold queueCycle
  rw [State.blind_expq, State.blind_uq, State.blind_ackNow]
  split
  · rfl
  · rfl
  · rfl
  · split
    · rw [performOp_blind, performOp_blind]
      rfl
    · rfl
  · rfl

theorem ignoresLines_blockCycle : IgnoresLines blockCycle := by
  intro s
  unfold blockCycle
  rw [State.blind_ready, State.blind_host, State.blind_tmr, State.blind_busy]
  repeat' split
  · exact ignoresLines_acceptCycle s
  · unfold State.tick
    rw [State.blind_pre, State.blind_cfg]
    split <;> rfl
  · exact ignoresLines_queueCycle s
  · rfl

theorem ignoresLines_step : IgnoresLines step := by
  have turn : IgnoresLines fun s => if s.rst then resetCycle s else blockCycle s := by
    intro s
    cases hr : s.rst
    · simpa [hr] using ignoresLines_blockCycle s
    · simpa [hr] using ignoresLines_resetCycle s
  intro s
  unfold step
  rw [State.blind_cfg]
  split
  · exact ignoresLines_serveClients.andThen turn s
  · rfl

end Sys2Proof.Machine
end

section
open Sys2Proof Sys2Proof.Machine

/-- Settles O52: the two states have one view, and a step seen through the view is a step of it. -/
theorem blockNeverLearnsFromTheLines : Obligations.BlockNeverLearnsFromTheLines := by
  unfold Obligations.BlockNeverLearnsFromTheLines
  intro s s' t t' hblock hinputs ht ht'
  have hview : s.blind = s'.blind := (blind_eq_iff s s').2 ⟨hblock, hinputs⟩
  have hstep : mapNext State.blind (step s) = mapNext State.blind (step s') :=
    calc mapNext State.blind (step s) = mapNext State.blind (step s.blind) :=
          (ignoresLines_step s).symm
      _ = mapNext State.blind (step s'.blind) := by rw [hview]
      _ = mapNext State.blind (step s') := ignoresLines_step s'
  rw [ht, ht'] at hstep
  exact (blind_eq_iff t t').1 (by injection hstep)

end

/-! # The LCD in step with the block

What performing a list does at the far end of the lines, list by list: a nibble, a SEND, the words of
a request, the whole of L_BEGIN from any LCD. -/

section
namespace Sys2Proof.Machine

/-! ## Performing a list to a condition -/

/-- `ops` performed from `s` ends in a state of which `Q` holds. -/
def PerformsTo (ops : List MicroOp) (s : State) (Q : State → Prop) : Prop :=
  ∃ u, performAll ops s = .next u ∧ Q u

theorem PerformsTo.append {a b : List MicroOp} {s : State} {P Q : State → Prop}
    (ha : PerformsTo a s P) (hb : ∀ t, P t → PerformsTo b t Q) : PerformsTo (a ++ b) s Q := by
  obtain ⟨t, hat, ht⟩ := ha
  obtain ⟨u, hbu, hu⟩ := hb t ht
  exact ⟨u, by rw [performAll_append, hat, andThen_next, hbu], hu⟩

theorem PerformsTo.mono {ops : List MicroOp} {s : State} {P Q : State → Prop}
    (h : PerformsTo ops s P) (hPQ : ∀ u, P u → Q u) : PerformsTo ops s Q := by
  obtain ⟨u, hu, hP⟩ := h
  exact ⟨u, hu, hPQ u hP⟩

/-- A wait does nothing on the lines. -/
theorem PerformsTo.wait {ops : List MicroOp} {s : State} {Q : State → Prop}
    (h : PerformsTo ops s Q) (us : BitVec 16) : PerformsTo (ops ++ [.wait us]) s Q :=
  h.append fun t ht => ⟨t, rfl, ht⟩

/-- Nor does the final `Done`. -/
theorem PerformsTo.done {ops : List MicroOp} {s : State} {Q : State → Prop}
    (h : PerformsTo ops s Q) (c : Byte) : PerformsTo (ops ++ [.done c]) s Q :=
  h.append fun t ht => ⟨t, rfl, ht⟩

/-- Performing a list leaves the shadows. -/
theorem performAll_shadows {ops : List MicroOp} {s u : State} (h : performAll ops s = .next u) :
    SameShadows s u := by
  obtain ⟨e, l, k, h', -, -⟩ := performAll_next ops s
  rw [h'] at h
  cases h
  exact ⟨rfl, rfl, rfl, rfl, rfl, rfl⟩

/-! ## The lines between primitives -/

/-- Nothing is left uncommitted, E is low and RS at the level `rs` (40_sequencer R406). -/
structure LinesAt (cfg : Config) (rs : Bool) (s : State) : Prop where
  config : s.cfg = cfg
  committed : s.expander.phys = s.expander.staged
  enable : s.expander.phys.getLsbD cfg.la.en = false
  select : s.expander.phys.getLsbD cfg.la.rs = rs

theorem LinesAt.settled {cfg : Config} {rs : Bool} {s : State} (h : LinesAt cfg rs s) :
    EnableSettled s := by
  rw [EnableSettled, h.committed]

/-- L_POWER brings the lines to rest, RS and E low, whatever they were. -/
theorem performsTo_initPower {s : State} (hv : s.cfg.la.valid = true) :
    PerformsTo (initPower s.cfg.la) s (LinesAt s.cfg false) := by
  obtain ⟨⟨hrs, hen, -⟩, ⟨hne, -⟩, -⟩ := lines_distinct hv
  obtain ⟨l, k, h1⟩ := performOp_next ⟨s.cfg.la.rs, false, .now⟩ s
  obtain ⟨l', k', h2⟩ := performOp_next ⟨s.cfg.la.en, false, .now⟩
    { s with expander := s.expander.setLevel ⟨s.cfg.la.rs, false, .now⟩, lcd := l, fresh := k }
  have heq : performAll (initPower s.cfg.la) s = andThen (performOp ⟨s.cfg.la.rs, false, .now⟩ s)
      fun t => andThen (performOp ⟨s.cfg.la.en, false, .now⟩ t) .next := rfl
  rw [h1, andThen_next, h2, andThen_next] at heq
  refine ⟨_, heq, rfl, rfl, ?_, ?_⟩
  · rw [setLevel_phys_now, getLsbD_setLevelBit, if_pos ⟨rfl, hen⟩]
  · rw [setLevel_phys_now, getLsbD_setLevelBit, if_neg (by simp [hne]), setLevel_staged,
      getLsbD_setLevelBit, if_pos ⟨rfl, hrs⟩]

/-- NIB with RS low leaves the lines at rest, and the LCD as the nibble leaves it. -/
theorem performsTo_nib {cfg : Config} {s : State} (hv : cfg.la.valid = true)
    (h : LinesAt cfg false s) (v : Nibble) :
    PerformsTo (nib cfg.la v) s fun u => LinesAt cfg false u
      ∧ ∃ t, lcdNibble false v s = .next t ∧ u.lcd = t.lcd := by
  have hs := h.settled
  obtain ⟨rfl, hcommitted, -, hselect⟩ := h
  have hstaged : s.expander.staged.getLsbD s.cfg.la.rs = false := by rw [← hcommitted, hselect]
  obtain ⟨l, k, hn⟩ := lcdNibble_next false v s
  obtain ⟨hcommitted', henable, hselect', -⟩ := nibLevels_lines hv v s.expander
  have heq := performAll_nib hv hs v
  rw [hstaged, hn, mapNext_next] at heq
  exact ⟨_, heq, ⟨rfl, hcommitted', henable, hselect'.trans hstaged⟩, _, hn, rfl⟩

/-! ## A byte on the lines -/

/-- The expander after SEND(b, rs). -/
def sendLevels (la : LineAssignment) (b : Byte) (rs : Bool) (e : Expander) : Expander :=
  nibLevels la (lowNibble b) (nibLevels la (highNibble b) (e.setLevel ⟨la.rs, rs, .now⟩))

/-- A byte is its two nibbles. -/
theorem highNibble_append_lowNibble (b : Byte) : highNibble b ++ lowNibble b = b := by
  revert b; decide

/-- Settled levels of E stay settled over NIB. -/
theorem enableSettled_nibLevels {s : State} (hv : s.cfg.la.valid = true) (v : Nibble)
    (e : Expander) : EnableSettled (s.withExpander (nibLevels s.cfg.la v e)) := by
  obtain ⟨hcommitted, -⟩ := nibLevels_lines hv v e
  rw [EnableSettled, State.withExpander_expander, hcommitted]

/-- The first nibble of a byte waits at the LCD for the second one. -/
theorem performAll_firstNib {s : State} (hv : s.cfg.la.valid = true) (hs : EnableSettled s)
    (hp : s.lcd.phase = .fourBit) (v : Nibble) :
    performAll (nib s.cfg.la v) s = .next ((s.withLcd { s.lcd with
      phase := .fourBitLow v }).withExpander (nibLevels s.cfg.la v s.expander)) := by
  simp only [performAll_nib hv hs, lcdNibble, hp, mapNext_next]

/-- The second nibble of a byte completes it. -/
theorem performAll_secondNib {s : State} (hv : s.cfg.la.valid = true) (hs : EnableSettled s)
    {high : Nibble} (hp : s.lcd.phase = .fourBitLow high) (v : Nibble) :
    performAll (nib s.cfg.la v) s = mapNext (State.withExpander (nibLevels s.cfg.la v s.expander))
      (lcdRun (s.expander.staged.getLsbD s.cfg.la.rs) (high ++ v)
        (s.withLcd { s.lcd with phase := .fourBit })) := by
  simp only [performAll_nib hv hs, lcdNibble, hp]

/-- SEND hands an LCD at a nibble boundary its word exactly once (40_sequencer R402). -/
theorem performAll_send {s : State} (hv : s.cfg.la.valid = true) (hs : EnableSettled s)
    (hp : s.lcd.phase = .fourBit) (b : Byte) (rs : Bool) :
    performAll (send s.cfg.la b rs) s
      = mapNext (State.withExpander (sendLevels s.cfg.la b rs s.expander)) (lcdRun rs b s) := by
  obtain ⟨⟨hrs, -⟩, ⟨hne, -⟩, -⟩ := lines_distinct hv
  obtain ⟨hselect, hs1⟩ := performOp_quiet (op := ⟨s.cfg.la.rs, rs, .now⟩) hs (.inl hne)
  have hstaged : (s.expander.setLevel ⟨s.cfg.la.rs, rs, .now⟩).staged.getLsbD s.cfg.la.rs = rs := by
    rw [setLevel_staged, getLsbD_setLevelBit, if_pos ⟨rfl, hrs⟩]
  rw [sendLevels]
  generalize s.expander.setLevel ⟨s.cfg.la.rs, rs, .now⟩ = e at hselect hs1 hstaged ⊢
  obtain ⟨hcommitted, -, hkept, -⟩ := nibLevels_lines hv (highNibble b) e
  have hstaged' : (nibLevels s.cfg.la (highNibble b) e).staged.getLsbD s.cfg.la.rs = rs := by
    rw [← hcommitted, hkept, hstaged]
  have hfirst := performAll_firstNib (s := s.withExpander e) hv hs1 hp (highNibble b)
  have hsecond := performAll_secondNib (s := ((s.withExpander e).withLcd { s.lcd with
    phase := .fourBitLow (highNibble b) }).withExpander (nibLevels s.cfg.la (highNibble b) e))
    hv (enableSettled_nibLevels hv _ e) rfl (lowNibble b)
  -- between the nibbles the LCD is as before, but for its phase
  have hback : (({ s with lcd := { s.lcd with phase := .fourBit } } : State).withExpander
      (nibLevels s.cfg.la (highNibble b) e))
      = s.withExpander (nibLevels s.cfg.la (highNibble b) e) := by rw [← hp]
  calc performAll (send s.cfg.la b rs) s
      = andThen (performOp ⟨s.cfg.la.rs, rs, .now⟩ s) fun t =>
          andThen (performAll (nib s.cfg.la (highNibble b)) t)
            (performAll (nib s.cfg.la (lowNibble b))) := by
        rw [send, performAll_append, performAll_append]
        simp only [setLine, performAll, hselect, andThen_next]
    _ = mapNext (State.withExpander (nibLevels s.cfg.la (lowNibble b)
          (nibLevels s.cfg.la (highNibble b) e)))
          (lcdRun rs b (s.withExpander (nibLevels s.cfg.la (highNibble b) e))) := by
        rw [hselect, andThen_next]
        refine (congrArg (fun o => andThen o _) hfirst).trans (hsecond.trans ?_)
        rw [highNibble_append_lowNibble, ← hback]
        exact congrArg (fun x => mapNext _ (lcdRun x b _)) hstaged'
    _ = _ := by
        rw [lcdRun_withExpander]
        cases lcdRun rs b s <;> rfl

/-- SEND leaves the lines at rest, RS at its level, and the LCD as its word leaves it. -/
theorem performsTo_send {s t : State} {b : Byte} {rs : Bool} (hv : s.cfg.la.valid = true)
    (hs : EnableSettled s) (hp : s.lcd.phase = .fourBit) (hrun : lcdRun rs b s = .next t) :
    PerformsTo (send s.cfg.la b rs) s fun u => LinesAt s.cfg rs u ∧ u.lcd = t.lcd := by
  obtain ⟨⟨hrs, -⟩, -⟩ := lines_distinct hv
  obtain ⟨l, k, hrun'⟩ := lcdRun_next rs b s
  obtain ⟨hc1, -, hs1, -⟩ := nibLevels_lines hv (highNibble b)
    (s.expander.setLevel ⟨s.cfg.la.rs, rs, .now⟩)
  obtain ⟨hc2, he2, hs2, -⟩ := nibLevels_lines hv (lowNibble b)
    (nibLevels s.cfg.la (highNibble b) (s.expander.setLevel ⟨s.cfg.la.rs, rs, .now⟩))
  rw [hrun] at hrun'
  cases hrun'
  have heq := performAll_send hv hs hp b rs
  rw [hrun, mapNext_next] at heq
  refine ⟨_, heq, ⟨rfl, hc2, he2, ?_⟩, rfl⟩
  refine hs2.trans ?_
  rw [← hc1, hs1, setLevel_staged, getLsbD_setLevelBit, if_pos ⟨rfl, hrs⟩]

/-! ## The words that write an on-device register -/

theorem decodeLcd_function {fn : Byte} (h : fn &&& 0xF3 = 0) :
    decodeLcd (LcdWord.of false (0x20 ||| fn))
        = .ok (.lcdFunctionSet false (fn.getLsbD 3) (fn.getLsbD 2) 0)
      ∧ functionRegister false (fn.getLsbD 3) (fn.getLsbD 2) = fn := by
  revert fn; decide

theorem decodeLcd_display {v : Byte} (h : v &&& 0xF8 = 0) :
    decodeLcd (LcdWord.of false (codeDisplay ||| v))
        = .ok (.lcdDisplayControl (v.getLsbD 2) (v.getLsbD 1) (v.getLsbD 0))
      ∧ displayRegister (v.getLsbD 2) (v.getLsbD 1) (v.getLsbD 0) = v := by
  revert v; decide

theorem decodeLcd_entry {v : Byte} (h : v &&& 0xFC = 0) :
    decodeLcd (LcdWord.of false (codeEntry ||| v))
        = .ok (.lcdEntryModeSet (v.getLsbD 1) (v.getLsbD 0))
      ∧ entryRegister (v.getLsbD 1) (v.getLsbD 0) = v := by
  revert v; decide

/-- CMD(0x20 | FN) writes the LCD's function register and keeps it on the 4-bit bus. -/
theorem performsTo_function {s : State} {fn : Byte} (hv : s.cfg.la.valid = true)
    (hs : EnableSettled s) (hp : s.lcd.phase = .fourBit) (hfn : fn &&& 0xF3 = 0) :
    PerformsTo (cmd s.cfg.la (0x20 ||| fn)) s fun u => LinesAt s.cfg false u
      ∧ SameRegisters { s.lcd with fn := fn } u.lcd := by
  obtain ⟨hd, hr⟩ := decodeLcd_function hfn
  refine (performsTo_send hv hs hp (lcdRun_of_decode hd s)).mono fun u hu => ⟨hu.1, ?_⟩
  rw [hu.2]
  exact ⟨hp.symm, hr, rfl, rfl⟩

/-- CMD(0x08 | DC) writes the LCD's display-control register alone. -/
theorem performsTo_display {s : State} {v : Byte} (hv : s.cfg.la.valid = true)
    (hs : EnableSettled s) (hp : s.lcd.phase = .fourBit) (hlegal : v &&& 0xF8 = 0) :
    PerformsTo (cmd s.cfg.la (codeDisplay ||| v)) s fun u => LinesAt s.cfg false u
      ∧ SameRegisters { s.lcd with dc := v } u.lcd := by
  obtain ⟨hd, hr⟩ := decodeLcd_display hlegal
  refine (performsTo_send hv hs hp (lcdRun_of_decode hd s)).mono fun u hu => ⟨hu.1, ?_⟩
  rw [hu.2]
  exact ⟨rfl, rfl, hr, rfl⟩

/-- CMD(0x04 | EM) writes the LCD's entry-mode register alone. -/
theorem performsTo_entry {s : State} {v : Byte} (hv : s.cfg.la.valid = true)
    (hs : EnableSettled s) (hp : s.lcd.phase = .fourBit) (hlegal : v &&& 0xFC = 0) :
    PerformsTo (cmd s.cfg.la (codeEntry ||| v)) s fun u => LinesAt s.cfg false u
      ∧ SameRegisters { s.lcd with em := v } u.lcd := by
  obtain ⟨hd, hr⟩ := decodeLcd_entry hlegal
  refine (performsTo_send hv hs hp (lcdRun_of_decode hd s)).mono fun u hu => ⟨hu.1, ?_⟩
  rw [hu.2]
  exact ⟨rfl, rfl, rfl, hr⟩

/-- A word that keeps the registers, sent. -/
theorem performsTo_keeps {s : State} {w : Bool × Byte} (hv : s.cfg.la.valid = true)
    (hs : EnableSettled s) (hp : s.lcd.phase = .fourBit) (hw : KeepsRegisters w) :
    PerformsTo (send s.cfg.la w.2 w.1) s fun u => LinesAt s.cfg w.1 u
      ∧ SameRegisters s.lcd u.lcd := by
  obtain ⟨l, k, hrun, hl⟩ := hw s
  refine (performsTo_send hv hs hp hrun).mono fun u hu => ⟨hu.1, ?_⟩
  rw [hu.2]
  exact hl

theorem SameRegisters.trans {a b c : Lcd} (h : SameRegisters a b) (h' : SameRegisters b c) :
    SameRegisters a c := by
  obtain ⟨h1, h2, h3, h4⟩ := h
  obtain ⟨h1', h2', h3', h4'⟩ := h'
  exact ⟨h1'.trans h1, h2'.trans h2, h3'.trans h3, h4'.trans h4⟩

/-- Any number of words that keep the registers, sent. -/
theorem performsTo_sendAll {ws : List (Bool × Byte)} (hws : ∀ w ∈ ws, KeepsRegisters w)
    {s : State} (hv : s.cfg.la.valid = true) (hs : EnableSettled s) (hp : s.lcd.phase = .fourBit) :
    PerformsTo (sendAll s.cfg.la ws) s fun u => EnableSettled u ∧ SameRegisters s.lcd u.lcd := by
  induction ws generalizing s with
  | nil => exact ⟨s, rfl, hs, rfl, rfl, rfl, rfl⟩
  | cons w ws ih =>
    rw [sendAll, List.flatMap_cons]
    refine (performsTo_keeps hv hs hp (hws w (by simp))).append fun t ⟨hlines, hregs⟩ => ?_
    have hrest := ih (fun x hx => hws x (by simp [hx])) (s := t) (hlines.config ▸ hv) hlines.settled
      (hregs.1.trans hp)
    rw [hlines.config] at hrest
    exact hrest.mono fun u hu => ⟨hu.1, hregs.trans hu.2⟩

/-! ## L_BEGIN -/

/-- A byte that has a format leaves the LCD's bus phase or selects one of the two buses. -/
theorem exec_decodeLcd_phase {w : LcdWord} {i : Instr} (h : decodeLcd w = .ok i) {s t : State}
    (ht : exec i s = .next t) : t.lcd.phase = s.lcd.phase ∨ ∃ dl, t.lcd.phase = busOf dl := by
  simp only [decodeLcd] at h
  repeat' split at h
  all_goals cases h
  all_goals cases ht
  -- FUNC, the fourth format, alone selects a bus
  pick_goal 4
  · exact .inr ⟨_, rfl⟩
  all_goals exact .inl rfl

/-- The bus phases in which one nibble 0x3 may leave any LCD. -/
def AfterOneThree (p : BusPhase) : Prop := p = .eightBit ∨ p = .fourBit ∨ p = .fourBitLow 0x3

/-- The bus phases in which two nibbles 0x3 leave any LCD. -/
def AfterTwoThrees (p : BusPhase) : Prop := p = .eightBit ∨ p = .fourBitLow 0x3

theorem lcdNibble_three_eightBit {s t : State} (hp : s.lcd.phase = .eightBit)
    (h : lcdNibble false 0x3 s = .next t) : t.lcd.phase = .eightBit := by
  have hd : decodeNibble (LoneNibble.of false 0x3) = .ok .lcdNibble8BitFunctionSet := by decide
  simp only [lcdNibble, hp, hd] at h
  cases h
  rfl

theorem lcdNibble_two_eightBit {s t : State} (hp : s.lcd.phase = .eightBit)
    (h : lcdNibble false 0x2 s = .next t) : t.lcd.phase = .fourBit := by
  have hd : decodeNibble (LoneNibble.of false 0x2) = .ok .lcdNibble4BitFunctionSet := by decide
  simp only [lcdNibble, hp, hd] at h
  cases h
  rfl

theorem lcdNibble_fourBit {s t : State} {n : Nibble} (hp : s.lcd.phase = .fourBit)
    (h : lcdNibble false n s = .next t) : t.lcd.phase = .fourBitLow n := by
  simp only [lcdNibble, hp] at h
  cases h
  rfl

/-- The byte 0x33 is a function set of the 8-bit bus. -/
theorem lcdNibble_three_three {s t : State} (hp : s.lcd.phase = .fourBitLow 0x3)
    (h : lcdNibble false 0x3 s = .next t) : t.lcd.phase = .eightBit := by
  have hd : decodeLcd (LcdWord.of false ((0x3 : Nibble) ++ (0x3 : Nibble)))
      = .ok (.lcdFunctionSet true false false 3) := by decide
  simp only [lcdNibble, hp] at h
  rw [lcdRun_of_decode hd] at h
  cases h
  rfl

/-- A nibble 0x3 that completes a byte leaves the LCD at a boundary of one of the two buses. -/
theorem lcdNibble_three_low {s t : State} {high : Nibble} (hp : s.lcd.phase = .fourBitLow high)
    (h : lcdNibble false 0x3 s = .next t) : t.lcd.phase = .eightBit ∨ t.lcd.phase = .fourBit := by
  have hok : (decodeLcd (LcdWord.of false (high ++ (0x3 : Nibble)))).isOk = true := by
    clear hp
    revert high
    decide
  simp only [lcdNibble, hp] at h
  cases hd : decodeLcd (LcdWord.of false (high ++ (0x3 : Nibble))) with
  | error =>
    rw [hd] at hok
    cases hok
  | ok i =>
    rw [lcdRun_of_decode hd] at h
    rcases exec_decodeLcd_phase hd h with hp' | ⟨dl, hp'⟩
    · exact .inr hp'
    · rw [hp']
      cases dl
      · exact .inr rfl
      · exact .inl rfl

/-- L_COAX1, from any LCD. -/
theorem phase_after_one_three {s t : State} (h : lcdNibble false 0x3 s = .next t) :
    AfterOneThree t.lcd.phase := by
  cases hp : s.lcd.phase with
  | eightBit => exact .inl (lcdNibble_three_eightBit hp h)
  | fourBit => exact .inr (.inr (lcdNibble_fourBit hp h))
  | fourBitLow high =>
    rcases lcdNibble_three_low hp h with hp' | hp'
    · exact .inl hp'
    · exact .inr (.inl hp')

/-- L_COAX2. -/
theorem phase_after_two_threes {s t : State} (hp : AfterOneThree s.lcd.phase)
    (h : lcdNibble false 0x3 s = .next t) : AfterTwoThrees t.lcd.phase := by
  rcases hp with hp | hp | hp
  · exact .inl (lcdNibble_three_eightBit hp h)
  · exact .inr (lcdNibble_fourBit hp h)
  · exact .inl (lcdNibble_three_three hp h)

/-- L_COAX3: the LCD is on the 8-bit bus, whatever it was on before. -/
theorem phase_after_three_threes {s t : State} (hp : AfterTwoThrees s.lcd.phase)
    (h : lcdNibble false 0x3 s = .next t) : t.lcd.phase = .eightBit := by
  rcases hp with hp | hp
  · exact lcdNibble_three_eightBit hp h
  · exact lcdNibble_three_three hp h

/-- The nibbles of L_BEGIN bring any LCD to a nibble boundary of the 4-bit bus (41_initialization
R513). -/
theorem performsTo_resync {s : State} (hv : s.cfg.la.valid = true) :
    PerformsTo (initPower s.cfg.la ++ initCoax12 s.cfg.la ++ initCoax12 s.cfg.la
      ++ initCoax3 s.cfg.la ++ init4Bit s.cfg.la) s
      fun u => LinesAt s.cfg false u ∧ u.lcd.phase = .fourBit := by
  have hpower := performsTo_initPower hv
  have hcoax1 := hpower.append fun t hl => ((performsTo_nib hv hl 0x3).wait tCoax12).mono
    fun u ⟨hl, t', hn, hlcd⟩ => And.intro hl (hlcd ▸ phase_after_one_three hn)
  have hcoax2 := hcoax1.append fun t ⟨hl, hp⟩ => ((performsTo_nib hv hl 0x3).wait tCoax12).mono
    fun u ⟨hl, t', hn, hlcd⟩ => And.intro hl (hlcd ▸ phase_after_two_threes hp hn)
  have hcoax3 := hcoax2.append fun t ⟨hl, hp⟩ => ((performsTo_nib hv hl 0x3).wait tCoax3).mono
    fun u ⟨hl, t', hn, hlcd⟩ => And.intro hl (hlcd ▸ phase_after_three_threes hp hn)
  exact hcoax3.append fun t ⟨hl, hp⟩ => (performsTo_nib hv hl 0x2).mono
    fun u ⟨hl, t', hn, hlcd⟩ => ⟨hl, hlcd ▸ lcdNibble_two_eightBit hp hn⟩

/-- L_BEGIN brings any LCD, from any levels of the lines, to a nibble boundary of the 4-bit bus with
the registers that the list carries (41_initialization R500, R513). -/
theorem performsTo_beginList {s : State} (hv : s.cfg.la.valid = true) {fn dc em : Byte}
    (hfn : fn &&& 0xF3 = 0) (hdc : dc &&& 0xF8 = 0) (hem : em &&& 0xFC = 0) :
    PerformsTo (beginList s.cfg.la fn dc em) s fun u => LinesAt s.cfg false u
      ∧ u.lcd.phase = .fourBit ∧ u.lcd.fn = fn ∧ u.lcd.dc = dc ∧ u.lcd.em = em := by
  have hfunc : PerformsTo _ s fun u => LinesAt s.cfg false u ∧ u.lcd.phase = .fourBit
      ∧ u.lcd.fn = fn := (performsTo_resync hv).append fun t ⟨hl, hp⟩ => by
    have h := performsTo_function (hl.config ▸ hv) hl.settled hp hfn
    rw [hl.config] at h
    exact h.mono fun u ⟨hl', hp', hfn', _, _⟩ => ⟨hl', hp'.trans hp, hfn'⟩
  have hdisp : PerformsTo _ s fun u => LinesAt s.cfg false u ∧ u.lcd.phase = .fourBit
      ∧ u.lcd.fn = fn ∧ u.lcd.dc = dc := hfunc.append fun t ⟨hl, hp, hf⟩ => by
    have h := performsTo_display (hl.config ▸ hv) hl.settled hp hdc
    rw [hl.config] at h
    exact h.mono fun u ⟨hl', hp', hfn', hdc', _⟩ => ⟨hl', hp'.trans hp, hfn'.trans hf, hdc'⟩
  have hclear : PerformsTo _ s fun u => LinesAt s.cfg false u ∧ u.lcd.phase = .fourBit
      ∧ u.lcd.fn = fn ∧ u.lcd.dc = dc := hdisp.append fun t ⟨hl, hp, hf, hd⟩ => by
    have h := (performsTo_keeps (hl.config ▸ hv) hl.settled hp keepsRegisters_clear).wait tLong
    rw [hl.config] at h
    exact h.mono fun u ⟨hl', hp', hfn', hdc', _⟩ =>
      ⟨hl', hp'.trans hp, hfn'.trans hf, hdc'.trans hd⟩
  refine hclear.append fun t ⟨hl, hp, hf, hd⟩ => ?_
  have h := performsTo_entry (hl.config ▸ hv) hl.settled hp hem
  rw [hl.config] at h
  exact h.mono fun u ⟨hl', hp', hfn', hdc', hem'⟩ =>
    ⟨hl', hp'.trans hp, hfn'.trans hf, hdc'.trans hd, hem'⟩

/-! ## Requests -/

/-- The LCD holds what the shadows of `t` say, at a nibble boundary of the 4-bit bus. -/
def HoldsShadows (t : State) (l : Lcd) : Prop :=
  l.phase = .fourBit ∧ t.fn = some l.fn ∧ t.dc = some l.dc ∧ t.em = some l.em

/-- An accepted request's queue, performed, leaves the LCD holding its shadows (10_state R104). -/
theorem RequestEffect.performs {s t : State} {i : Instr} (h : RequestEffect s i t)
    (hi : ∀ b, i ≠ .command b) (hv : s.cfg.la.valid = true) (hs : EnableSettled s)
    (hin : LcdInStep s) (hlegal : Machine.shadowsLegal s = true) (huq : s.uq = []) :
    PerformsTo t.uq t fun u => EnableSettled u ∧ HoldsShadows t u.lcd := by
  have hlegal' := h.shadowsLegal hlegal
  rw [shadowsLegal_iff] at hlegal'
  obtain ⟨-, hdcLegal, hemLegal⟩ := hlegal'
  obtain ⟨hp, hfn, hdc, hem⟩ := hin
  have keep : ∀ l, SameRegisters s.lcd l → HoldsShadows s l := by
    rintro l ⟨hp', hfn', hdc', hem'⟩
    exact ⟨hp'.trans hp, hfn'.symm ▸ hfn, hdc'.symm ▸ hdc, hem'.symm ▸ hem⟩
  cases h with
  | fault => rw [faulted_uq, huq]; exact ⟨_, rfl, hs, hp, hfn, hdc, hem⟩
  | rowOffsets => exact ⟨_, rfl, hs, hp, hfn, hdc, hem⟩
  | begin cols rows size fn hfnLegal =>
    refine ((performsTo_beginList (s := accepted _ 0 (s.configure fn _ _ rows _)) hv hfnLegal
      (by decide : beginDisplay &&& 0xF8 = 0) (by decide : beginEntry &&& 0xFC = 0)).done 0).mono ?_
    rintro u ⟨hl, hp', rfl, hdc', hem'⟩
    exact ⟨hl.settled, hp', rfl, congrArg some hdc'.symm, congrArg some hem'.symm⟩
  | displayFlag _ v v' =>
    refine ((performsTo_display (s := accepted _ 0 (s.setDc v')) hv hs hp
      (hdcLegal v' rfl)).done 0).mono ?_
    rintro u ⟨hl, hp', hfn', hdc', hem'⟩
    exact ⟨hl.settled, hp'.trans hp, hfn'.symm ▸ hfn, congrArg some hdc'.symm, hem'.symm ▸ hem⟩
  | entryFlag _ v v' =>
    refine ((performsTo_entry (s := accepted _ 0 (s.setEm v')) hv hs hp
      (hemLegal v' rfl)).done 0).mono ?_
    rintro u ⟨hl, hp', hfn', hdc', hem'⟩
    exact ⟨hl.settled, hp'.trans hp, hfn'.symm ▸ hfn, hdc'.symm ▸ hdc, congrArg some hem'.symm⟩
  | sends _ ws settle c hsettle hc hlen hws =>
    have hsent := performsTo_sendAll (hws hi)
      (s := accepted (sendAll s.cfg.la ws ++ settle) c s) hv hs hp
    have hall : PerformsTo (sendAll s.cfg.la ws ++ settle)
        (accepted (sendAll s.cfg.la ws ++ settle) c s)
        fun u => EnableSettled u ∧ SameRegisters s.lcd u.lcd := by
      rcases hsettle with rfl | rfl
      · rw [List.append_nil] at hsent ⊢
        exact hsent
      · exact hsent.wait tLong
    exact (hall.done c).mono fun u hu => ⟨hu.1, keep _ hu.2⟩

end Sys2Proof.Machine
end

section
open Sys2Proof Sys2Proof.Machine

/-- Settles O59: what a request sends writes the LCD's registers as the request writes the
shadows. -/
theorem requestsKeepShadowsTrue : Obligations.RequestsKeepShadowsTrue := by
  unfold Obligations.RequestsKeepShadowsTrue
  intro s t u w i hv hs hin hlegal huq hd hi hexec hperform
  have hla : s.cfg.la.valid = true := (Bool.and_eq_true_iff.1 hv).1
  obtain ⟨t', ht', heffect⟩ := exec_effect hd s
  rw [hexec] at ht'
  cases ht'
  obtain ⟨u', hu', hsettled, hp, hfn, hdc, hem⟩ := heffect.performs hi hla hs hin hlegal huq
  rw [hperform] at hu'
  cases hu'
  obtain ⟨-, hfn', hdc', hem', -, -⟩ := performAll_shadows hperform
  exact ⟨⟨hp, hfn'.trans hfn, hdc'.trans hdc, hem'.trans hem⟩, hsettled⟩

end

/-! # Lines that belong to others

What a step leaves of the lines outside the LineAssignment, and what operations of other clients on
those lines leave of a transfer (20_memory). -/

section
namespace Sys2Proof.Machine

/-! ## What the block puts on the lines -/

/-- The operation that the block presents is on one of its own lines. -/
theorem Inv.expq_line {s : State} (h : Inv s) {op : ExpOp} (he : s.expq = some op) :
    op.line ∈ s.cfg.la.lines := by
  have hbusy : s.busy = true := by
    by_contra hb
    simp [(h.idle (by simpa using hb)).2.2] at he
  have hhead := h.outstanding
  rw [outstandingIsHead, he] at hhead
  split at hhead
  · contradiction
  · next op₁ op₂ rest hop hu =>
    obtain ⟨rfl, -⟩ : op₁ = op₂ ∧ s.tmr = 0 := by simpa using hhead
    cases hop
    have hq := (h.busyQueue hbusy).1
    rw [hu] at hq
    simpa [microOpOk] using (queueOk_tail (by simp) hq).1
  · contradiction

/-- Reset stages nothing but the operation it cuts off. -/
theorem resetCycle_staged {s t : State} (h : resetCycle s = .next t) :
    t.expander.staged = s.expander.staged
      ∨ ∃ op, s.expq = some op ∧ t.expander.staged = (s.expander.setLevel op).staged := by
  obtain ⟨u, hu, rfl⟩ := mapNext_eq_next.1 h
  rw [State.resetBlock_expander]
  split at hu
  · cases hu
    exact .inl rfl
  · next op he =>
    split at hu
    · obtain ⟨l, k, rfl⟩ := performOp_frame hu
      exact .inr ⟨op, he, rfl⟩
    · cases hu
      exact .inl rfl

/-- With no other client acting, a step stages nothing but the operation the block presents. -/
theorem step_staged {s t : State} (hc : s.clients = []) (h : step s = .next t) :
    t.expander.staged = s.expander.staged
      ∨ ∃ op, s.expq = some op ∧ t.expander.staged = (s.expander.setLevel op).staged := by
  obtain ⟨hv, e, l, k, hserve, -, -, hcases⟩ := step_cases h
  rw [serveClients_nil hc] at hserve
  obtain rfl : s.expander = e := by
    injection hserve with hserve
    exact congrArg State.expander hserve
  rcases hcases with ⟨hr, -⟩ | ⟨-, -, -, ha⟩ | ⟨-, -, hq⟩
  · rw [step_valid hv, cycle, serveClients_nil hc, andThen_next, if_pos hr] at h
    exact resetCycle_staged h
  · rcases acceptCycle_cases ha with ⟨c, -, rfl⟩ | ⟨_, _, _, _, _, _, _, _, rfl⟩ <;> exact .inl rfl
  · rcases hq with ⟨-, rfl⟩ | ⟨-, -, rfl⟩ | ⟨-, -, ⟨_, _, -, -, rfl⟩ | ⟨_, _, -, -, rfl⟩
      | ⟨_, _, -, -, rfl⟩ | ⟨_, _, _, -, -, -, rfl⟩ | ⟨op, _, _, _, _, he, -, -, rfl⟩⟩
    -- the last case, the acknowledged operation, alone stages a level
    pick_goal 7
    · exact .inr ⟨op, he, rfl⟩
    · exact .inl (by rw [State.tick_expander]; rfl)
    all_goals exact .inl rfl

/-! ## Two expanders that a transfer cannot tell apart -/

/-- The same levels staged on the block's lines, and E settled on both. The physical levels of the
other five lines may differ: a latch-now of another client commits what the block has staged. -/
structure SameOnLines (la : LineAssignment) (e e' : Expander) : Prop where
  staged : ∀ l ∈ la.lines, e'.staged.getLsbD l = e.staged.getLsbD l
  settled : e.staged.getLsbD la.en = e.phys.getLsbD la.en
  settled' : e'.staged.getLsbD la.en = e'.phys.getLsbD la.en

/-- A latch-now operation, or one on another line than E: it leaves E settled. -/
def leavesEnableSettled (la : LineAssignment) : MicroOp → Bool
  | .expSet op => decide (op.latch = .now ∨ op.line ≠ la.en)
  | .wait _ => true
  | .done _ => true

theorem leavesEnableSettled_send {la : LineAssignment} (hv : la.valid = true) (b : Byte) (rs : Bool) :
    ∀ op ∈ send la b rs, leavesEnableSettled la op = true := by
  obtain ⟨-, -, ⟨e0, e1, e2, -⟩, -⟩ := lines_distinct hv
  simp [send, nib, pulse, setLine, stageLine, leavesEnableSettled, e0.symm, e1.symm, e2.symm]

/-- The nibble on the lines is read off the block's lines. -/
theorem lineNibble_congr {la : LineAssignment} {x y : BitVec 8}
    (h : ∀ l ∈ la.lines, y.getLsbD l = x.getLsbD l) : lineNibble la y = lineNibble la x := by
  simp only [LineAssignment.lines, List.forall_mem_cons] at h
  obtain ⟨-, -, h0, h1, h2, h3, -⟩ := h
  rw [lineNibble, lineNibble, h0, h1, h2, h3]

/-- An operation that does not defer E leaves it settled. -/
theorem setLevel_settled {la : LineAssignment} {e : Expander} {op : ExpOp}
    (h : e.staged.getLsbD la.en = e.phys.getLsbD la.en) (hop : op.latch = .now ∨ op.line ≠ la.en) :
    (e.setLevel op).staged.getLsbD la.en = (e.setLevel op).phys.getLsbD la.en := by
  rcases op with ⟨line, level, _ | _⟩
  · have hne : ¬(la.en = line ∧ line < 8) := by
      rintro ⟨rfl, -⟩
      simp at hop
    rw [setLevel_staged, setLevel_phys_defer, getLsbD_setLevelBit, if_neg hne, h]
  · rfl

namespace SameOnLines

variable {la : LineAssignment} {e e' : Expander}

theorem refl (h : e.staged.getLsbD la.en = e.phys.getLsbD la.en) : SameOnLines la e e :=
  ⟨fun _ _ => rfl, h, h⟩

/-- E stands at the same level on both. -/
theorem enable (h : SameOnLines la e e') : e'.phys.getLsbD la.en = e.phys.getLsbD la.en := by
  rw [← h.settled, ← h.settled', h.staged la.en (by simp [LineAssignment.lines])]

/-- One operation performed on both. -/
theorem setLevel (h : SameOnLines la e e') {op : ExpOp} (hop : op.latch = .now ∨ op.line ≠ la.en) :
    SameOnLines la (e.setLevel op) (e'.setLevel op) := by
  refine ⟨fun l hl => ?_, setLevel_settled h.settled hop, setLevel_settled h.settled' hop⟩
  simp only [setLevel_staged, getLsbD_setLevelBit, h.staged l hl]

/-- An operation on another line performed on one of them. -/
theorem foreign (h : SameOnLines la e e') {op : ExpOp} (hop : op.line ∉ la.lines) :
    SameOnLines la e (e'.setLevel op) := by
  have hne : ∀ l ∈ la.lines, ¬(l = op.line ∧ op.line < 8) := by
    rintro l hl ⟨rfl, -⟩
    exact hop hl
  refine ⟨fun l hl => ?_, h.settled, setLevel_settled h.settled' (.inr ?_)⟩
  · rw [setLevel_staged, getLsbD_setLevelBit, if_neg (hne l hl), h.staged l hl]
  · rintro heq
    exact hop (by simp [heq, LineAssignment.lines])

theorem foreign_foldl (h : SameOnLines la e e') {gap : List ExpOp}
    (hgap : ∀ op ∈ gap, op.line ∉ la.lines) :
    SameOnLines la e (gap.foldl (fun e op => e.setLevel op) e') := by
  induction gap generalizing e' with
  | nil => exact h
  | cons op gap ih =>
    exact ih (h.foreign (hgap op (by simp))) fun o ho => hgap o (by simp [ho])

/-- One operation does the same at the LCD with either expander. -/
theorem performOp {s : State} (h : SameOnLines s.cfg.la s.expander e') {op : ExpOp}
    (hop : op.latch = .now ∨ op.line ≠ s.cfg.la.en) :
    performOp op (s.withExpander e')
      = mapNext (State.withExpander (e'.setLevel op)) (performOp op s) := by
  have h' := h.setLevel hop
  have hrises : eRises s.cfg.la e'.phys (e'.setLevel op).phys
      = eRises s.cfg.la s.expander.phys (s.expander.setLevel op).phys := by
    rw [eRises, eRises, h.enable, h'.enable]
  cases hr : eRises s.cfg.la s.expander.phys (s.expander.setLevel op).phys with
  | false => rw [performOp_of_steady hr, performOp_of_steady (hrises.trans hr)]; rfl
  | true =>
    have hnow : op.latch = .now := by
      rcases op with ⟨line, level, _ | _⟩
      · simp [eRises, setLevel_phys_defer] at hr
      · rfl
    have hphys : ∀ e : Expander, (e.setLevel op).phys = (e.setLevel op).staged := by
      intro e
      simp [Expander.setLevel, hnow]
    rw [performOp_of_rises hr, performOp_of_rises (s := s.withExpander e') (hrises.trans hr)]
    simp only [hphys, State.withExpander_expander, State.withExpander_cfg]
    rw [lineNibble_congr h'.staged, h'.staged s.cfg.la.rs (by simp [LineAssignment.lines]),
      lcdNibble_withExpander, lcdNibble_withExpander, lcdNibble_withExpander]
    obtain ⟨l, k, hn⟩ := lcdNibble_next ((s.expander.setLevel op).staged.getLsbD s.cfg.la.rs)
      (lineNibble s.cfg.la (s.expander.setLevel op).staged) s
    rw [hn]
    rfl

/-- So does one micro-operation of a list. -/
theorem performOne {s : State} (h : SameOnLines s.cfg.la s.expander e') {op : MicroOp}
    (hop : leavesEnableSettled s.cfg.la op = true) :
    ∃ u e'', performAll [op] s = .next u ∧ performAll [op] (s.withExpander e')
      = .next (u.withExpander e'') ∧ u.cfg = s.cfg ∧ SameOnLines s.cfg.la u.expander e'' := by
  cases op with
  | wait | done => exact ⟨s, e', rfl, rfl, rfl, h⟩
  | expSet op =>
    have hop : op.latch = .now ∨ op.line ≠ s.cfg.la.en := of_decide_eq_true hop
    obtain ⟨l, k, hs⟩ := performOp_next op s
    refine ⟨{ s with expander := s.expander.setLevel op, lcd := l, fresh := k }, e'.setLevel op,
      by rw [performAll, hs]; rfl, ?_, rfl, h.setLevel hop⟩
    rw [performAll, h.performOp hop, hs]
    rfl

end SameOnLines

/-! ## Lists shared with other clients -/

/-- Operations of other clients change the expander alone, in a way no transfer can tell. -/
theorem performAll_foreign {s : State} {e' : Expander} (h : SameOnLines s.cfg.la s.expander e')
    {gap : List ExpOp} (hgap : ∀ op ∈ gap, op.line ∉ s.cfg.la.lines) :
    ∃ e'', performAll (gap.map .expSet) (s.withExpander e') = .next (s.withExpander e'')
      ∧ SameOnLines s.cfg.la s.expander e'' := by
  refine ⟨_, (performAll_quiet (s := s.withExpander e') h.settled' fun op hop => .inl ?_).1,
    h.foreign_foldl hgap⟩
  rintro heq
  exact hgap op hop (by simp [heq, LineAssignment.lines])

theorem performAllShared_nil (gaps : List (List ExpOp)) (s : State) :
    performAllShared gaps [] s = .next s := by
  simp [performAllShared]

/-- No gap left is an empty gap before each micro-operation left. -/
theorem performAllShared_cons (gaps : List (List ExpOp)) (op : MicroOp) (ops : List MicroOp)
    (s : State) : performAllShared gaps (op :: ops) s
      = andThen (performAll ((gaps.headD []).map .expSet) s) fun s =>
        andThen (performAll [op] s) (performAllShared gaps.tail ops) := by
  cases gaps with
  | cons gap gaps => rfl
  | nil =>
    have hrest : performAllShared [] ops = performAll ops := by
      funext t
      cases ops <;> rfl
    show performAll ([op] ++ ops) s = andThen (performAll [op] s) (performAllShared [] ops)
    rw [performAll_append, hrest]

/-- Performing a list that leaves E settled does the same at the LCD whatever other clients do on
other lines in between (20_memory R241). -/
theorem performAllShared_foreign {ops : List MicroOp} {s : State} {e' : Expander}
    (h : SameOnLines s.cfg.la s.expander e')
    (hops : ∀ op ∈ ops, leavesEnableSettled s.cfg.la op = true) {gaps : List (List ExpOp)}
    (hgaps : ∀ gap ∈ gaps, ∀ op ∈ gap, op.line ∉ s.cfg.la.lines) :
    ∃ u e'', performAll ops s = .next u
      ∧ performAllShared gaps ops (s.withExpander e') = .next (u.withExpander e'') := by
  induction ops generalizing s e' gaps with
  | nil => exact ⟨s, e', rfl, performAllShared_nil _ _⟩
  | cons op ops ih =>
    have hhead : ∀ o ∈ gaps.headD [], o.line ∉ s.cfg.la.lines := by
      cases gaps with
      | nil => simp
      | cons gap gaps => exact hgaps gap (by simp)
    obtain ⟨e₁, hgap, h₁⟩ := performAll_foreign h hhead
    obtain ⟨t, e₂, hs, hshared, hcfg, h₂⟩ := h₁.performOne (hops op (by simp))
    rw [← hcfg] at hops hgaps h₂
    obtain ⟨u, e₃, hu, hu'⟩ := ih h₂ (fun o ho => hops o (by simp [ho])) (gaps := gaps.tail)
      fun gap hg => hgaps gap (List.mem_of_mem_tail hg)
    refine ⟨u, e₃, ?_, ?_⟩
    · rw [← List.singleton_append, performAll_append, hs, andThen_next, hu]
    · rw [performAllShared_cons, hgap, andThen_next, hshared, andThen_next, hu']

/-! ## The cycle that hands the LCD a nibble -/

/-- The cycle of a busy block whose presented operation is acknowledged. -/
theorem step_acknowledged {s : State} {op op' : ExpOp} {rest : List MicroOp}
    (hv : s.cfg.valid = true) (hc : s.clients = []) (hr : s.rst = false) (hb : s.busy = true)
    (ht : s.tmr = 0) (he : s.expq = some op) (hu : s.uq = .expSet op' :: rest)
    (ha : s.expander.ackNow = true) :
    step s = performOp op (s.popAck.finishSet.emit (.expSet op)) := by
  rw [step_valid hv, cycle_quiet hc hr, blockCycle_queue hb ht]
  simp only [queueCycle, he, hu, ha, if_true]

/-- In 4-bit mode the second nibble completes its byte. -/
theorem lcdNibble_fourBitLow {s : State} {high : Nibble} (hp : s.lcd.phase = .fourBitLow high)
    (rs : Bool) (n : Nibble) :
    lcdNibble rs n s = lcdRun rs (high ++ n) (s.withLcd { s.lcd with phase := .fourBit }) := by
  simp only [lcdNibble, hp]

/-- In 8-bit mode a lone nibble runs at once. -/
theorem lcdNibble_lone {s : State} {rs : Bool} {n : Nibble} {i : Instr}
    (hp : s.lcd.phase = .eightBit) (hd : decodeNibble (LoneNibble.of rs n) = .ok i) :
    lcdNibble rs n s = exec i s := by
  simp only [lcdNibble, hp, hd]

end Sys2Proof.Machine
end

section
open Sys2Proof Sys2Proof.Machine

/-- Settles O51: a presented operation is the head of a well-formed queue, before the step and after
it, and nothing else is staged. -/
theorem otherLinesAreNeverStaged : Obligations.OtherLinesAreNeverStaged := by
  unfold Obligations.OtherLinesAreNeverStaged
  intro s t j hinv hc h
  constructor
  · intro op hop
    rw [← parametersNeverChange s t h]
    exact (invariantKeptByEveryStep s t hinv h).expq_line hop
  · intro hj
    rcases step_staged hc h with hsame | ⟨op, hop, hset⟩
    · rw [hsame]
    · have hne : ¬(j = op.line ∧ op.line < 8) := by
        rintro ⟨rfl, -⟩
        exact hj (hinv.expq_line hop)
      rw [hset, setLevel_staged, getLsbD_setLevelBit, if_neg hne]

/-- Settles O57: with the other clients and without, a SEND does the same at the LCD, and without
them the LCD runs its word. -/
theorem otherClientsCannotCorruptASend : Obligations.OtherClientsCannotCorruptASend := by
  unfold Obligations.OtherClientsCannotCorruptASend
  intro s b rs gaps hv hs hp hgaps
  obtain ⟨t, e, halone, hshared⟩ := performAllShared_foreign (SameOnLines.refl hs)
    (leavesEnableSettled_send hv b rs) hgaps
  obtain ⟨l, k, hrun⟩ := lcdRun_next rs b s
  rw [performAll_send hv hs hp, hrun, mapNext_next] at halone
  cases halone
  exact ⟨_, _, hshared, hrun, rfl, rfl⟩

/-- Settles O7: the acknowledged operation raises E, and the LCD takes the nibble by its bus
phase. -/
theorem stepRunsTheWordAtTheLcd : Obligations.StepRunsTheWordAtTheLcd := by
  unfold Obligations.StepRunsTheWordAtTheLcd
  intro s op op' rest i hv hc hr hb ht he hu ha hrises e rs n s'
  obtain rfl : s.uq.tail = rest := by rw [hu, List.tail_cons]
  have hstep : step s = lcdNibble rs n s' := by
    rw [step_acknowledged hv hc hr hb ht he hu ha]
    exact performOp_of_rises (s := s.popAck.finishSet.emit (.expSet op)) hrises
  constructor
  · intro high hp hd
    have hp' : s'.lcd.phase = .fourBitLow high := hp
    rw [hstep, lcdNibble_fourBitLow hp', lcdRun_of_decode hd]
    rfl
  · intro hp hd
    have hp' : s'.lcd.phase = .eightBit := hp
    rw [hstep, lcdNibble_lone hp' hd]

/-- Settles O30, arm by arm: each word's byte is its code with its operand, and its effect on the
address counter is the one its arm writes. -/
theorem lcdAddressWordsSelectTheirMemory : Obligations.LcdAddressWordsSelectTheirMemory := by
  unfold Obligations.LcdAddressWordsSelectTheirMemory
  intro s a6 a7 x
  exact ⟨rfl, rfl, rfl⟩

/-- Settles O54: one staged bit is written; latch-now copies the staged levels. -/
theorem setLevelMeetsTheExpanderContract : Obligations.SetLevelMeetsTheExpanderContract := by
  unfold Obligations.SetLevelMeetsTheExpanderContract
  intro e line level j hline _
  have hstaged : ∀ latch, (e.setLevel ⟨line, level, latch⟩).staged.getLsbD j
      = if j = line then level else e.staged.getLsbD j := by
    intro latch
    simp only [setLevel_staged, getLsbD_setLevelBit, hline, and_true]
  exact ⟨hstaged .defer, setLevel_phys_defer line level e, hstaged .now, rfl⟩

end

/-! # The encodings: decoding of encoded words, the bits a word's meaning uses, the LCD's words -/

section
namespace Sys2Proof.Machine

/-! ## The bits of a request word that its opcode uses -/

theorem byte_and (k : Nat) (w m : Request) :
    Request.byte k (w &&& m) = Request.byte k w &&& Request.byte k m :=
  BitVec.extractLsb'_and

/-- Words that agree on the bits of a mask agree, in each byte, on the mask's bits of that byte. -/
theorem byte_and_congr {w w' m : Request} (h : w &&& m = w' &&& m) (k : Nat) :
    Request.byte k w &&& Request.byte k m = Request.byte k w' &&& Request.byte k m := by
  rw [← byte_and, h, byte_and]

/-- Words that agree on the bits of a mask agree in every byte that the mask covers. -/
theorem byte_congr {w w' m : Request} (h : w &&& m = w' &&& m) (k : Nat)
    (hm : Request.byte k m = 0xFF) : Request.byte k w = Request.byte k w' := by
  have hk := byte_and_congr h k
  rwa [hm, show (0xFF : Byte) = BitVec.allOnes 8 from rfl, BitVec.and_allOnes,
    BitVec.and_allOnes] at hk

/-- Every operation uses the whole opcode byte. -/
theorem byte_zero_usedBits (op : Nat) : Request.byte 0 (usedBits op) = 0xFF := by
  unfold usedBits
  split <;> decide

theorem getLsbD_zero_congr {b b' : Byte} (h : b &&& 0x01 = b' &&& 0x01) :
    b.getLsbD 0 = b'.getLsbD 0 := by
  simpa using congrArg (·.getLsbD 0) h

/-- CREATE_CHAR's address byte uses the slot's bits 2..0 alone. -/
theorem byteCgram_congr {slot slot' : Byte} (h : slot &&& 0x07 = slot' &&& 0x07) :
    byteCgram slot = byteCgram slot' := by
  rw [byteCgram, byteCgram, h]

/-- An assigned opcode is decoded whatever the other bytes are. -/
theorem exists_decode_of_assigned {w : Request} (h : (Request.byte 0 w).toNat < 0x14) :
    ∃ i, decode w = .ok i := by
  cases hd : decode w with
  | ok i => exact ⟨i, rfl⟩
  | error e => exact absurd ((decode_error_iff w).1 ⟨e, hd⟩) (by omega)

/-- Words that agree on the used bits mean the same: both have one opcode and equal operands, but for
a CREATE_CHAR's slot, of which they have the same three low bits. -/
theorem exec_eq_of_usedBits {w w' : Request} {i i' : Instr}
    (h : w &&& usedBits (Request.byte 0 w).toNat = w' &&& usedBits (Request.byte 0 w).toNat)
    (hi : decode w = .ok i) (hi' : decode w' = .ok i') (s : State) : exec i s = exec i' s := by
  simp only [decode, ← byte_congr h 0 (byte_zero_usedBits _)] at hi hi'
  split at hi
  case h_21 => cases hi
  all_goals
    rename_i hop
    simp only [hop] at h hi'
    cases hi
    cases hi'
  case h_1 =>
    have hsize := getLsbD_zero_congr (byte_and_congr h 3)
    rw [byte_congr h 1 (by decide), byte_congr h 2 (by decide), hsize]
  case h_16 =>
    rw [byte_congr h 1 (by decide), byte_congr h 2 (by decide), byte_congr h 3 (by decide),
      byte_congr h 4 (by decide)]
  case h_17 => rw [byte_congr h 1 (by decide), byte_congr h 2 (by decide)]
  case h_18 =>
    have hslot := byteCgram_congr (byte_and_congr h 1)
    rw [byte_congr h 2 (by decide), byte_congr h 3 (by decide), byte_congr h 4 (by decide),
      byte_congr h 5 (by decide), byte_congr h 6 (by decide), byte_congr h 7 (by decide),
      byte_congr h 8 (by decide), byte_congr h 9 (by decide)]
    simp only [exec, execCreateChar, hslot]
  case h_19 => rw [byte_congr h 1 (by decide)]
  case h_20 => rw [byte_congr h 1 (by decide)]
  all_goals rfl

/-! ## The formats of the LCD words -/

/-- A rejected LCD word has no bit set. -/
theorem eq_zero_of_decodeLcd_error {w : LcdWord} {e : DecodeError} (h : decodeLcd w = .error e) :
    w = 0 := by
  simp only [decodeLcd] at h
  repeat' split at h
  all_goals cases h
  refine BitVec.eq_of_getLsbD_eq fun j hj => ?_
  interval_cases j
  all_goals simp_all

/-- The word is put together again from its format: its highest set bit, and below it the fields, each
at the bits it was read from. -/
theorem encode_of_decodeLcd {w : LcdWord} {i : Instr} (h : decodeLcd w = .ok i) :
    encode i = .lcdWord w := by
  simp only [decodeLcd] at h
  repeat' split at h
  all_goals cases h
  all_goals
    refine congrArg Encoded.lcdWord (BitVec.eq_of_getLsbD_eq fun j hj => ?_)
    simp only [LcdWord.byte, BitVec.getLsbD_append, BitVec.getLsbD_extractLsb',
      BitVec.getLsbD_ofBool, BitVec.ofNat_eq_ofNat]
    interval_cases j
  all_goals simp_all

/-- SHIFT's byte, by its two flags. -/
theorem shiftByte_eq (sc rl : Bool) (x : BitVec 2) :
    codeShift ||| (0#4 ++ BitVec.ofBool sc ++ BitVec.ofBool rl ++ x)
      = 0x10 ||| (if sc then 0x08 else 0) ||| (if rl then 0x04 else 0) ||| x.setWidth 8 := by
  revert sc rl x
  decide

end Sys2Proof.Machine
end

section
open Sys2Proof Sys2Proof.Machine

/-- Settles O1, format by format: a request is read from the bytes it was assembled from, and the
fields of an LCD word, DATA's byte apart, have few enough values to try each. -/
theorem decodeOfEncodeIsTheInstruction : Obligations.DecodeOfEncodeIsTheInstruction := by
  unfold Obligations.DecodeOfEncodeIsTheInstruction
  intro i hwf
  cases i
  case begin cols rows size =>
    cases size <;>
      simp [decodeEncoded, encode, decode, byte_ofBytes, CharSize.toByte, CharSize.ofBit]
  case createChar slot bitmap =>
    have hlen : bitmap.length = 8 := by simpa [WellFormed] using hwf
    match bitmap, hlen with
    | [b0, b1, b2, b3, b4, b5, b6, b7], _ => simp [decodeEncoded, encode, decode, byte_ofBytes]
  case lcdClearDisplay => decide
  case lcdReturnHome x => revert x; decide
  case lcdEntryModeSet id sh => revert id sh; decide
  case lcdDisplayControl d c b => revert d c b; decide
  case lcdCursorDisplayShift sc rl x => revert sc rl x; decide
  case lcdFunctionSet dl n f x => revert dl n f x; decide
  case lcdSetCgramAddr addr => revert addr; decide
  case lcdSetDdramAddr addr => revert addr; decide
  case lcdWriteData byte => exact decodeLcd_data byte
  case lcdNibble8BitFunctionSet => decide
  case lcdNibble4BitFunctionSet => decide
  all_goals simp [decodeEncoded, encode, decode, byte_ofBytes]

/-- Settles O3: the used bits hold the opcode, so both words decode, and all that their meaning
reads. -/
theorem unusedRequestBitsAreIgnored : Obligations.UnusedRequestBitsAreIgnored := by
  unfold Obligations.UnusedRequestBitsAreIgnored
  intro w w' h hop
  obtain ⟨i, hi⟩ := exists_decode_of_assigned hop
  rw [byte_congr h 0 (byte_zero_usedBits _)] at hop
  obtain ⟨i', hi'⟩ := exists_decode_of_assigned hop
  exact ⟨i, i', hi, hi', exec_eq_of_usedBits h hi hi'⟩

/-- Settles O5: only a word with no bit set is rejected, and a format's fields are all the bits below
its highest. -/
theorem lcdFormatsPartitionTheWords : Obligations.LcdFormatsPartitionTheWords := by
  unfold Obligations.LcdFormatsPartitionTheWords
  intro w
  refine ⟨⟨?_, fun ⟨e, h⟩ => eq_zero_of_decodeLcd_error h⟩, fun i => encode_of_decodeLcd⟩
  rintro rfl
  exact ⟨_, rfl⟩

/-- Settles O28: for each value of the flags, the register that the arm concatenates is the OR of the
flags' bits. -/
theorem lcdRegisterWordsWriteTheirRegister : Obligations.LcdRegisterWordsWriteTheirRegister := by
  unfold Obligations.LcdRegisterWordsWriteTheirRegister
  intro s d c b id sh dl n f x
  refine ⟨?_, ?_, ?_⟩
  · cases d <;> cases c <;> cases b <;> rfl
  · cases id <;> cases sh <;> rfl
  · cases dl <;> cases n <;> cases f <;> rfl

/-- Settles O31: the address is the free value of the state's counter. -/
theorem lcdWordsThatLeaveTheAddressToTheLcd : Obligations.LcdWordsThatLeaveTheAddressToTheLcd := by
  unfold Obligations.LcdWordsThatLeaveTheAddressToTheLcd
  intro s sc rl x b
  refine ⟨Config.freeAddr s.fresh, Config.freeAddr s.fresh, Config.freeAddr s.fresh, rfl, ?_, rfl⟩
  rw [← shiftByte_eq]
  rfl

end

/-! # The sequencer: its cycles, one rule each, and what the trace level sees of them -/

section
namespace Sys2Proof.Machine

/-! ## The outstanding operation -/

/-- An outstanding operation is the head of the queue. -/
theorem Inv.expq_head {s : State} (h : Inv s) {op : ExpOp} (he : s.expq = some op) :
    ∃ rest, s.uq = .expSet op :: rest := by
  have hhead := h.outstanding
  rw [outstandingIsHead, he] at hhead
  split at hhead
  · contradiction
  · next op₁ op₂ rest hop hu =>
    cases hop
    obtain ⟨rfl, -⟩ : op = op₂ ∧ s.tmr = 0 := by simpa using hhead
    exact ⟨rest, hu⟩
  · cases hhead

/-! ## A next state exists -/

/-- Taking a request never stops the machine (60_exceptions R810). -/
theorem acceptCycle_next (s : State) : ∃ t, acceptCycle s = .next t := by
  unfold acceptCycle
  cases hd : decode s.host.data with
  | ok i =>
    obtain ⟨u, hu, -⟩ := exec_effect hd s
    exact ⟨u.releasePort, by simp only [hu, mapNext_next]⟩
  | error => exact ⟨_, rfl⟩

/-- The queue of a busy block with the invariant has a head that a rule applies to. -/
theorem Inv.queueCycle_next {s : State} (h : Inv s) (hb : s.busy = true) :
    ∃ t, queueCycle s = .next t := by
  rcases queueCycle_cases s with ⟨_, _, -, -, hq⟩ | ⟨_, _, -, -, hq⟩ | ⟨_, _, -, -, hq⟩
    | ⟨_, _, _, -, -, -, hq⟩ | ⟨op, _, _, -, -, -, hq⟩ | ⟨-, hempty, -⟩ | ⟨hsome, hhead, -⟩
  · exact ⟨_, hq⟩
  · exact ⟨_, hq⟩
  · exact ⟨_, hq⟩
  · exact ⟨_, hq⟩
  · obtain ⟨l, k, hp⟩ := performOp_next op (s.popAck.finishSet.emit (.expSet op))
    exact ⟨_, hq.trans hp⟩
  · obtain ⟨hqueue, -⟩ := h.busyQueue hb
    simp [hempty, queueOk] at hqueue
  · obtain ⟨op, he⟩ := Option.isSome_iff_exists.1 hsome
    obtain ⟨rest, hu⟩ := h.expq_head he
    exact absurd hu (hhead op rest)

theorem Inv.blockCycle_next {s : State} (h : Inv s) : ∃ t, blockCycle s = .next t := by
  unfold blockCycle
  split
  · exact acceptCycle_next s
  split
  · exact ⟨_, rfl⟩
  split
  · next hb => exact h.queueCycle_next hb
  · exact ⟨_, rfl⟩

/-- Other clients that keep off the six lines are served. -/
theorem serveClients_next {s : State} (h : ∀ op, some op ∈ s.clients → op.line ∉ s.cfg.la.lines) :
    ∃ t, serveClients s = .next t := by
  unfold serveClients
  split
  · exact ⟨_, rfl⟩
  · exact ⟨_, rfl⟩
  · next op rest hc =>
    rw [if_neg (h op (by simp [hc]))]
    obtain ⟨l, k, hp⟩ := performOp_next op s.popClient
    exact ⟨_, hp⟩

/-! ## What a request reads -/

/-- What the trace level sees of a state, as a state, with the word on the port. -/
def State.seen (s : State) : State := s.abs.withPort s.host.data

@[simp] theorem State.seen_shv (s : State) : s.seen.shv = s.shv := rfl
@[simp] theorem State.seen_dc (s : State) : s.seen.dc = s.dc := rfl
@[simp] theorem State.seen_em (s : State) : s.seen.em = s.em := rfl
@[simp] theorem State.seen_rc (s : State) : s.seen.rc = s.rc := rfl
@[simp] theorem State.seen_roff (s : State) : s.seen.roff = s.roff := rfl
@[simp] theorem State.seen_host_data (s : State) : s.seen.host.data = s.host.data := rfl

theorem toggleDc_seen (f : Byte → Byte) (s : State) :
    toggleDc f s.seen = mapNext State.seen (toggleDc f s) := by
  unfold toggleDc
  rw [State.seen_shv, State.seen_dc]
  split <;> rfl

theorem toggleEm_seen (f : Byte → Byte) (s : State) :
    toggleEm f s.seen = mapNext State.seen (toggleEm f s) := by
  unfold toggleEm
  rw [State.seen_shv, State.seen_em]
  split <;> rfl

theorem execSetCursor_seen (col row : Byte) (s : State) :
    execSetCursor col row s.seen = mapNext State.seen (execSetCursor col row s) := by
  unfold execSetCursor
  rw [State.seen_shv, State.seen_rc, State.seen_roff]
  repeat' split
  all_goals rfl

/-- A request reads what the trace level sees and the word on the port, nothing else. -/
theorem exec_decode_seen {w : Request} {i : Instr} (h : decode w = .ok i) (s : State) :
    exec i s.seen = mapNext State.seen (exec i s) := by
  simp only [decode] at h
  split at h
  case h_4 | h_5 | h_6 | h_7 | h_8 | h_9 => cases h; exact toggleDc_seen _ s
  case h_10 | h_11 | h_12 | h_13 => cases h; exact toggleEm_seen _ s
  case h_17 => cases h; exact execSetCursor_seen _ _ s
  case h_21 => cases h
  all_goals cases h; rfl

/-- Taking a request is the same at the trace level, whatever the clock, the ports and the
environment. -/
theorem acceptCycle_seen {s t : State} (h : acceptCycle s = .next t) :
    ∃ t', acceptCycle s.seen = .next t' ∧ t'.abs = t.abs := by
  unfold acceptCycle at h ⊢
  rw [State.seen_host_data]
  cases hd : decode s.host.data with
  | ok i =>
    obtain ⟨u, hu, rfl⟩ := mapNext_eq_next.1 h
    simp only [hd] at hu
    exact ⟨u.seen.releasePort, by simp only [exec_decode_seen hd, hu, mapNext_next], rfl⟩
  | error =>
    simp only [hd, raiseFault_eq, mapNext_next] at h
    cases h
    exact ⟨_, rfl, rfl⟩

/-! ## The transitions of the trace level (40_sequencer R428) -/

theorem traceStep_accept {s t : State} (hr : s.ready = true) (h : acceptCycle s = .next t) :
    traceStep s.abs (.accept s.host.data) = some t.abs := by
  obtain ⟨t', ht', habs⟩ := acceptCycle_seen h
  have ht' : acceptCycle (s.abs.withPort s.host.data) = .next t' := ht'
  simp only [traceStep, if_pos (show s.abs.busy = false ∧ s.abs.fault = .none from
    (ready_iff s).1 hr), ht', habs]

theorem traceStep_performSet {a : Abs} {op : ExpOp} {rest : List MicroOp}
    (h : a.uq = .expSet op :: rest) : traceStep a .performSet
      = some { a with uq := a.uq.tail, trace := a.trace ++ [.expSet op] } := by
  simp only [traceStep, h, List.tail_cons]

theorem traceStep_performWait {a : Abs} {us : BitVec 16} {rest : List MicroOp}
    (h : a.uq = .wait us :: rest) : traceStep a .performWait
      = some { a with uq := a.uq.tail, trace := a.trace ++ [.wait us] } := by
  simp only [traceStep, h, List.tail_cons]

theorem traceStep_complete {a : Abs} {c : Byte} {rest : List MicroOp}
    (h : a.uq = .done c :: rest) : traceStep a .complete
      = some { a with uq := [], busy := false, trace := a.trace ++ [.done c] } := by
  simp only [traceStep, h]

/-- The timer is below the trace level. -/
theorem State.abs_tick (s : State) : s.tick.abs = s.abs := by
  unfold State.tick
  split <;> rfl

end Sys2Proof.Machine
end

section
open Sys2Proof Sys2Proof.Machine

/-- Settles O53, one case of `step_cases` at a time: the timer, an idle cycle, a presented and an
unacknowledged operation are silent; each other case is the transition of its name. -/
theorem cycleRefinesTheTraceRelation : Obligations.CycleRefinesTheTraceRelation := by
  unfold Obligations.CycleRefinesTheTraceRelation
  intro s t hinv hrst h
  obtain ⟨-, e, l, k, -, -, -, ⟨hr, -⟩ | ⟨-, hready, -, ha⟩ | ⟨-, -, hq⟩⟩ := step_cases h
  · simp [hrst] at hr
  · exact .inr ⟨_, traceStep_accept (s := s.served e l k) hready ha⟩
  · rcases hq with ⟨-, rfl⟩ | ⟨-, -, rfl⟩ | ⟨-, -, ⟨_, _, -, -, rfl⟩ | ⟨us, _, -, hu, rfl⟩
      | ⟨c, _, -, hu, rfl⟩ | ⟨_, _, _, -, -, -, rfl⟩ | ⟨op, _, _, _, _, he, -, -, rfl⟩⟩
    · exact .inl (State.abs_tick _)
    · exact .inl rfl
    · exact .inl rfl
    · exact .inr ⟨.performWait, traceStep_performWait hu⟩
    · exact .inr ⟨.complete, traceStep_complete hu⟩
    · exact .inl rfl
    · obtain ⟨rest, hu⟩ := hinv.expq_head he
      exact .inr ⟨.performSet, traceStep_performSet hu⟩

/-- Settles O47: the other clients are served, and then a reset cycle and the block's cycle each have
a next state. -/
theorem invariantMeansTheNextStepExists : Obligations.InvariantMeansTheNextStepExists := by
  unfold Obligations.InvariantMeansTheNextStepExists
  intro s hinv hclients
  obtain ⟨s', hserve⟩ := serveClients_next hclients
  rw [step_valid hinv.valid, cycle, hserve, andThen_next]
  obtain ⟨e, l, k, rfl, -, -⟩ := serveClients_frame hserve
  split
  · obtain ⟨e', l', k', hreset, -, -⟩ := resetCycle_next (s.served e l k)
    exact ⟨_, hreset⟩
  · exact (hinv.served e l k).blockCycle_next

end

/-! # The queue, one micro-operation at a time -/

section
namespace Sys2Proof.Machine

/-! ## The cycles of a busy block -/

/-- The block is in the middle of a request: `rst` is low, no other client acts, and the timer has
stopped. -/
structure Sequencing (s : State) : Prop where
  valid : s.cfg.valid = true
  clients : s.clients = []
  rst : s.rst = false
  busy : s.busy = true
  tmr : s.tmr = 0

theorem Sequencing.step {s : State} (h : Sequencing s) : step s = queueCycle s := by
  rw [step_valid h.valid, cycle_quiet h.clients h.rst, blockCycle_queue h.busy h.tmr]

/-- The head `ExpSet` is presented (40_sequencer R422). -/
theorem Sequencing.step_present {s : State} (h : Sequencing s) {op : ExpOp} {rest : List MicroOp}
    (he : s.expq = none) (hu : s.uq = .expSet op :: rest) : Machine.step s = .next (s.present op) := by
  simp only [h.step, queueCycle, he, hu]

/-- An operation that is not acknowledged waits (40_sequencer R422). -/
theorem Sequencing.step_unacknowledged {s : State} (h : Sequencing s) {op op' : ExpOp}
    {rest : List MicroOp} (he : s.expq = some op) (hu : s.uq = .expSet op' :: rest)
    (ha : s.expander.ackNow = false) : Machine.step s = .next s.popAck := by
  simp only [h.step, queueCycle, he, hu, ha, Bool.false_eq_true, if_false]

/-- An acknowledged operation is performed, emitted and removed (40_sequencer R422). -/
theorem Sequencing.step_acknowledged {s : State} (h : Sequencing s) {op op' : ExpOp}
    {rest : List MicroOp} (he : s.expq = some op) (hu : s.uq = .expSet op' :: rest)
    (ha : s.expander.ackNow = true) :
    ∃ l k, Machine.step s = .next { s with
      expq := none
      uq := rest
      trace := s.trace ++ [.expSet op]
      expander := s.expander.popAck.setLevel op
      lcd := l
      fresh := k } := by
  obtain ⟨l, k, hp⟩ := performOp_next op (s.popAck.finishSet.emit (.expSet op))
  refine ⟨l, k, ?_⟩
  rw [Machine.step_acknowledged h.valid h.clients h.rst h.busy h.tmr he hu ha, hp,
    show rest = s.uq.tail by rw [hu, List.tail_cons]]
  rfl

/-- The head `Wait` is loaded, emitted and removed (40_sequencer R423). -/
theorem Sequencing.step_wait {s : State} (h : Sequencing s) {us : BitVec 16} {rest : List MicroOp}
    (he : s.expq = none) (hu : s.uq = .wait us :: rest) :
    Machine.step s = .next { s with
      tmr := us, pre := 0, uq := rest, trace := s.trace ++ [.wait us] } := by
  simp only [h.step, queueCycle, he, hu, State.startWait, State.emit, List.tail_cons]

/-- The `Done` ends the request (40_sequencer R424). -/
theorem Sequencing.step_done {s : State} (h : Sequencing s) {c : Byte} {rest : List MicroOp}
    (he : s.expq = none) (hu : s.uq = .done c :: rest) :
    Machine.step s = .next { s with
      uq := [], busy := false, trace := s.trace ++ [.done c] } := by
  simp only [h.step, queueCycle, he, hu, State.finish, State.emit]

/-- The timer counts (40_sequencer R431). -/
theorem step_tick {s : State} (hv : s.cfg.valid = true) (hc : s.clients = []) (hr : s.rst = false)
    (hb : s.busy = true) (ht : s.tmr ≠ 0) : step s = .next s.tick := by
  rw [step_valid hv, cycle_quiet hc hr, blockCycle_tick hb ht]

/-! ## The timer -/

/-- `s` after its timer, loaded with the prescaler at 0, has counted for `k` cycles. -/
def State.counted (k : Nat) (s : State) : State :=
  { s with
    tmr := BitVec.ofNat 16 (s.tmr.toNat - k / s.cfg.cycPerUs)
    pre := k % s.cfg.cycPerUs }

theorem cycPerUs_pos {cfg : Config} (h : cfg.valid = true) : 0 < cfg.cycPerUs :=
  of_decide_eq_true (Bool.and_eq_true_iff.1 h).2

theorem counted_zero {s : State} (hp : s.pre = 0) : s.counted 0 = s := by
  have hpre : 0 % s.cfg.cycPerUs = s.pre := by rw [Nat.zero_mod, hp]
  simp only [State.counted, hpre, Nat.zero_div, Nat.sub_zero, BitVec.ofNat_toNat,
    BitVec.setWidth_eq]

/-- Before its last cycle the timer has not run out. -/
theorem counted_tmr_ne_zero {s : State} {k : Nat} (hk : k < s.tmr.toNat * s.cfg.cycPerUs) :
    (s.counted k).tmr ≠ 0 := by
  have hleft : k / s.cfg.cycPerUs < s.tmr.toNat := Nat.div_lt_of_lt_mul (by rwa [Nat.mul_comm])
  show BitVec.ofNat 16 (s.tmr.toNat - k / s.cfg.cycPerUs) ≠ 0
  generalize k / s.cfg.cycPerUs = micros at hleft ⊢
  bv_omega

/-- One more cycle: the prescaler advances, or wraps and takes a microsecond off the timer. -/
theorem counted_tick {s : State} (hpos : 0 < s.cfg.cycPerUs) {k : Nat}
    (hk : k < s.tmr.toNat * s.cfg.cycPerUs) : (s.counted k).tick = s.counted (k + 1) := by
  have hleft : k / s.cfg.cycPerUs < s.tmr.toNat := Nat.div_lt_of_lt_mul (by rwa [Nat.mul_comm])
  have hsum := Nat.mod_add_div k s.cfg.cycPerUs
  have hmod := Nat.mod_lt k hpos
  rw [State.tick, show (s.counted k).pre = k % s.cfg.cycPerUs from rfl,
    show (s.counted k).cfg = s.cfg from rfl]
  split
  · next hwrap =>
    obtain ⟨hq, hr⟩ : (k + 1) / s.cfg.cycPerUs = k / s.cfg.cycPerUs + 1
        ∧ (k + 1) % s.cfg.cycPerUs = 0 :=
      (Nat.div_mod_unique hpos).2 ⟨by rw [Nat.mul_add_one]; omega, hpos⟩
    have htmr : BitVec.ofNat 16 (s.tmr.toNat - k / s.cfg.cycPerUs) - 1
        = BitVec.ofNat 16 (s.tmr.toNat - (k / s.cfg.cycPerUs + 1)) := by bv_omega
    simp only [State.counted, hq, hr, htmr]
  · next hmore =>
    obtain ⟨hq, hr⟩ : (k + 1) / s.cfg.cycPerUs = k / s.cfg.cycPerUs
        ∧ (k + 1) % s.cfg.cycPerUs = k % s.cfg.cycPerUs + 1 :=
      (Nat.div_mod_unique hpos).2 ⟨by omega, by omega⟩
    simp only [State.counted, hq, hr]

/-- The timer holds the block for as long as it was loaded with. -/
theorem runCycles_counted {s : State} (hv : s.cfg.valid = true) (hc : s.clients = [])
    (hr : s.rst = false) (hb : s.busy = true) (hp : s.pre = 0) {k : Nat}
    (hk : k ≤ s.tmr.toNat * s.cfg.cycPerUs) : runCycles k s = .next (s.counted k) := by
  induction k with
  | zero => rw [counted_zero hp, runCycles]
  | succ k ih =>
    rw [runCycles_succ, ih (Nat.le_of_succ_le hk), andThen_next,
      step_tick (s := s.counted k) hv hc hr hb (counted_tmr_ne_zero hk),
      counted_tick (cycPerUs_pos hv) hk]

end Sys2Proof.Machine
end

section
open Sys2Proof Sys2Proof.Machine

/-- Settles O36: presented, held, performed, one rule of the head `ExpSet` each. -/
theorem expSetIsPresentedThenPerformed : Obligations.ExpSetIsPresentedThenPerformed := by
  unfold Obligations.ExpSetIsPresentedThenPerformed
  intro s op rest hv hc hr hb ht hu
  have hs : Sequencing s := ⟨hv, hc, hr, hb, ht⟩
  refine ⟨fun he => hs.step_present he hu, fun he => ⟨?_, ?_, fun ha => ?_, fun ha => ?_⟩⟩
  · rw [outExpValid, he, Option.isSome_some]
  · rw [outExp, he, Option.map_some]
  · exact hs.step_unacknowledged he hu ha
  · exact hs.step_acknowledged he hu ha

/-- Settles O38: the head `Wait` loads the timer, and a counting timer leaves the queue. -/
theorem waitLoadsTheTimer : Obligations.WaitLoadsTheTimer := by
  unfold Obligations.WaitLoadsTheTimer
  intro s hv hc hr hb
  refine ⟨fun us rest ht he hu => ?_, fun ht => ⟨s.tick, step_tick hv hc hr hb ht, ?_⟩⟩
  · exact (Sequencing.mk hv hc hr hb ht).step_wait he hu
  · simp [hb]

/-- Settles O39, by induction on the cycles counted. -/
theorem timerHoldsExactly : Obligations.TimerHoldsExactly := by
  unfold Obligations.TimerHoldsExactly
  intro s k hv hc hr hb hp hk
  exact runCycles_counted hv hc hr hb hp hk

/-- Settles O40: the `Done` at the head drives the completion port and ends the request. -/
theorem doneCompletesTheRequest : Obligations.DoneCompletesTheRequest := by
  unfold Obligations.DoneCompletesTheRequest
  intro s c rest hv hc hr hb ht he hu
  have hcount : outDoneCount s = some c := by simp [outDoneCount, hu, hb, ht]
  refine ⟨by rw [outDone, hcount, Option.isSome_some], hcount, _,
    (Sequencing.mk hv hc hr hb ht).step_done he hu, rfl, rfl, fun hf => ?_⟩
  exact (ready_iff _).2 ⟨rfl, hf⟩

end

/-! # A loaded list, performed straight through -/

section
namespace Sys2Proof.Machine

/-- A block between two micro-operations, with an expander that acknowledges at once (log entry 4). -/
structure AtOnce (s : State) : Prop extends Sequencing s where
  expq : s.expq = none
  acks : s.expander.acks = []
  ackRest : s.expander.ackRest = true

/-- `t` is `s` with the events `es` emitted and the queue `q` left: the prescaler, the expander's
levels, the LCD and the free-value counter may differ, nothing else. -/
def Ran (s : State) (es : List Event) (q : List MicroOp) (t : State) : Prop :=
  ∃ p e l k, e.acks = [] ∧ e.ackRest = true ∧ t = { s with
    uq := q, trace := s.trace ++ es, pre := p, expander := e, lcd := l, fresh := k }

theorem Ran.trans {s t u : State} {es es' : List Event} {q q' : List MicroOp} (h : Ran s es q t)
    (h' : Ran t es' q' u) : Ran s (es ++ es') q' u := by
  obtain ⟨p, e, l, k, -, -, rfl⟩ := h
  obtain ⟨p', e', l', k', ha, har, rfl⟩ := h'
  exact ⟨p', e', l', k', ha, har, by simp only [List.append_assoc]⟩

theorem Ran.uq {s t : State} {es : List Event} {q : List MicroOp} (h : Ran s es q t) : t.uq = q := by
  obtain ⟨_, _, _, _, -, -, rfl⟩ := h
  rfl

theorem Ran.cfg {s t : State} {es : List Event} {q : List MicroOp} (h : Ran s es q t) :
    t.cfg = s.cfg := by
  obtain ⟨_, _, _, _, -, -, rfl⟩ := h
  rfl

namespace AtOnce

variable {s t : State}

theorem ran_nil (h : AtOnce s) : Ran s [] s.uq s :=
  ⟨s.pre, s.expander, s.lcd, s.fresh, h.acks, h.ackRest, by rw [List.append_nil]⟩

theorem of_ran (h : AtOnce s) {es : List Event} {q : List MicroOp} (hran : Ran s es q t) :
    AtOnce t := by
  obtain ⟨_, _, _, _, ha, har, rfl⟩ := hran
  exact ⟨⟨h.valid, h.clients, h.rst, h.busy, h.tmr⟩, h.expq, ha, har⟩

/-- An `ExpSet` takes two cycles: presented, then acknowledged. -/
theorem run_expSet (h : AtOnce s) {op : ExpOp} {rest : List MicroOp}
    (hu : s.uq = .expSet op :: rest) :
    ∃ t, runCycles 2 s = .next t ∧ Ran s [.expSet op] rest t := by
  have hpresented : Sequencing (s.present op) := ⟨h.valid, h.clients, h.rst, h.busy, h.tmr⟩
  have hack : (s.present op).expander.ackNow = true := by simp [Expander.ackNow, h.acks, h.ackRest]
  obtain ⟨l, k, hstep⟩ := hpresented.step_acknowledged rfl hu hack
  have hrun : runCycles 2 s = andThen (step (s.present op)) .next := by
    simp only [runCycles, h.step_present h.expq hu, andThen_next]
  rw [hstep, andThen_next] at hrun
  refine ⟨_, hrun, s.pre, s.expander.popAck.setLevel op, l, k, ?_, h.ackRest, ?_⟩
  · show s.expander.acks.tail = []
    rw [h.acks, List.tail_nil]
  · simp [State.present, h.expq]

/-- A `Wait` takes the cycle that loads it and the cycles that the timer counts. -/
theorem run_wait (h : AtOnce s) {us : BitVec 16} {rest : List MicroOp}
    (hu : s.uq = .wait us :: rest) :
    ∃ t, runCycles (1 + us.toNat * s.cfg.cycPerUs) s = .next t ∧ Ran s [.wait us] rest t := by
  have hcount := runCycles_counted
    (s := { s with tmr := us, pre := 0, uq := rest, trace := s.trace ++ [.wait us] })
    h.valid h.clients h.rst h.busy rfl (Nat.le_refl (us.toNat * s.cfg.cycPerUs))
  have hrun := runCycles_add 1 (us.toNat * s.cfg.cycPerUs) s
  rw [runCycles, h.step_wait h.expq hu, andThen_next, runCycles, andThen_next, hcount] at hrun
  refine ⟨_, hrun, us.toNat * s.cfg.cycPerUs % s.cfg.cycPerUs, s.expander, s.lcd, s.fresh, h.acks,
    h.ackRest, ?_⟩
  simp [State.counted, Nat.mul_div_cancel _ (cycPerUs_pos h.valid), h.tmr]

/-- One micro-operation, performed in the cycles of 70_reset_and_hazards R950. -/
theorem run_one (h : AtOnce s) {op : MicroOp} {rest : List MicroOp} (hu : s.uq = op :: rest)
    (hop : ∀ d, op ≠ .done d) :
    ∃ t, runCycles (cyclesOf s.cfg.cycPerUs [op]) s = .next t ∧ Ran s (eventsOf [op]) rest t := by
  cases op with
  | expSet op => exact h.run_expSet hu
  | wait us => simpa [cyclesOf, eventsOf] using h.run_wait hu
  | done c => exact absurd rfl (hop c)

end AtOnce

theorem cyclesOf_cons (c : Nat) (op : MicroOp) (ops : List MicroOp) :
    cyclesOf c (op :: ops) = cyclesOf c [op] + cyclesOf c ops := by
  cases op <;> simp only [cyclesOf] <;> omega

theorem eventsOf_cons (op : MicroOp) (ops : List MicroOp) :
    eventsOf (op :: ops) = eventsOf [op] ++ eventsOf ops := by
  cases op <;> rfl

/-- A list without a `Done` is performed straight through (40_sequencer R420 to R426). -/
theorem AtOnce.run_list {ops q : List MicroOp} {s : State} (h : AtOnce s) (hu : s.uq = ops ++ q)
    (hops : ∀ d, .done d ∉ ops) :
    ∃ t, runCycles (cyclesOf s.cfg.cycPerUs ops) s = .next t ∧ Ran s (eventsOf ops) q t := by
  induction ops generalizing s with
  | nil => exact ⟨s, rfl, by rw [← List.nil_append q, ← hu]; exact h.ran_nil⟩
  | cons op ops ih =>
    obtain ⟨t, ht, hran⟩ := h.run_one hu fun d hd => hops d (by simp [hd])
    obtain ⟨u, hrest, hran'⟩ := ih (h.of_ran hran) hran.uq fun d hd => hops d (by simp [hd])
    rw [hran.cfg] at hrest
    refine ⟨u, ?_, eventsOf_cons op ops ▸ hran.trans hran'⟩
    rw [cyclesOf_cons, runCycles_add, ht, andThen_next, hrest]

end Sys2Proof.Machine
end

section
open Sys2Proof Sys2Proof.Machine

/-- Settles O41: the list is performed, by induction on it, and then the `Done` ends the request. -/
theorem loadedListCompletesInOrder : Obligations.LoadedListCompletesInOrder := by
  unfold Obligations.LoadedListCompletesInOrder
  intro s ops c hv hc hr hb hf ht he ha har hu hops
  have hs : AtOnce s := ⟨⟨hv, hc, hr, hb, ht⟩, he, ha, har⟩
  obtain ⟨t, hrun, hran⟩ := hs.run_list hu hops
  have hdone := (hs.of_ran hran).step_done (hs.of_ran hran).expq hran.uq
  have hall := runCycles_succ (cyclesOf s.cfg.cycPerUs ops) s
  rw [hrun, andThen_next, hdone] at hall
  obtain ⟨_, _, _, _, -, -, rfl⟩ := hran
  refine ⟨_, hall, rfl, rfl, rfl, fun hover => ?_, rfl, ht, he, ⟨rfl, rfl, rfl, rfl, rfl, rfl⟩,
    rfl, rfl⟩
  exact (final_iff _).2 ⟨rfl, rfl, hf, hover, endsWithDone_done _ c⟩

end

/-! # The primitives: their lists, their sizes, the levels they leave and the word they deliver -/

section
namespace Sys2Proof.Machine

/-! ## The halves of a byte -/

theorem getLsbD_highNibble (b : Byte) {k : Nat} (hk : k < 4) :
    (highNibble b).getLsbD k = b.getLsbD (4 + k) := by
  simp [highNibble, hk]

theorem getLsbD_lowNibble (b : Byte) {k : Nat} (hk : k < 4) :
    (lowNibble b).getLsbD k = b.getLsbD k := by
  simp [lowNibble, hk]

/-! ## Sizes -/

/-- Micro-operations, `ExpSet`s, `Wait`s and the sum of the waits of a list. -/
def listSizes (ops : List MicroOp) : Nat × Nat × Nat × Nat :=
  (ops.length, expSetCount ops, waitCount ops, waitMicros ops)

theorem listSizes_cons (op : MicroOp) (ops : List MicroOp) :
    listSizes (op :: ops) = listSizes [op] + listSizes ops := by
  cases op <;> simp [listSizes, expSetCount, waitCount, waitMicros, Nat.add_comm]

/-- The sizes of a list are the sums of those of its parts. -/
theorem listSizes_append (a b : List MicroOp) :
    listSizes (a ++ b) = listSizes a + listSizes b := by
  induction a with
  | nil => exact (zero_add (listSizes b)).symm
  | cons op a ih => rw [List.cons_append, listSizes_cons, ih, listSizes_cons op a, add_assoc]

theorem listSizes_wait (us : BitVec 16) : listSizes [.wait us] = (1, 0, 1, us.toNat) := by
  simp [listSizes, expSetCount, waitCount, waitMicros]

theorem listSizes_nib (la : LineAssignment) (v : Nibble) : listSizes (nib la v) = (10, 7, 3, 52) :=
  rfl

theorem listSizes_send (la : LineAssignment) (b : Byte) (rs : Bool) :
    listSizes (send la b rs) = (21, 15, 6, 104) := by
  rw [send, listSizes_append, listSizes_append, listSizes_nib, listSizes_nib]
  rfl

theorem listSizes_initPower (la : LineAssignment) :
    listSizes (initPower la) = (3, 2, 1, 50000) := by
  rw [initPower, listSizes_cons, listSizes_wait]
  rfl

/-- L_BEGIN is its four lone nibbles and its four SENDs, with their waits (41_initialization R508). -/
theorem listSizes_beginList (la : LineAssignment) (fn dc em : Byte) :
    listSizes (beginList la fn dc em) = (131, 90, 41, 61774) := by
  simp only [beginList, initCoax12, initCoax3, init4Bit, initFunc, initDisp, initClear, initEntry,
    cmd, listSizes_append, listSizes_nib, listSizes_send, listSizes_initPower, listSizes_wait]
  decide

/-- Every byte that is sent adds the sizes of one SEND. -/
theorem listSizes_flatMap_data (la : LineAssignment) (bs : List Byte) :
    listSizes (bs.flatMap (data la)) = bs.length • (21, 15, 6, 104) := by
  induction bs with
  | nil => rfl
  | cons b bs ih =>
    rw [List.flatMap_cons, listSizes_append, ih, data, listSizes_send, List.length_cons, succ_nsmul']

/-! ## Levels -/

/-- The expander after the micro-operations of a list. -/
def levelsAfter : List MicroOp → Expander → Expander
  | [], e => e
  | .expSet op :: ops, e => levelsAfter ops (e.setLevel op)
  | .wait _ :: ops, e => levelsAfter ops e
  | .done _ :: ops, e => levelsAfter ops e

/-- Performing a list moves the expander by its operations alone, whatever the LCD does. -/
theorem performAll_levels (ops : List MicroOp) (s : State) :
    ∃ l k, performAll ops s
      = .next { s with expander := levelsAfter ops s.expander, lcd := l, fresh := k } := by
  induction ops generalizing s with
  | nil => exact ⟨s.lcd, s.fresh, rfl⟩
  | cons op ops ih =>
    cases op with
    | expSet op =>
      obtain ⟨l, k, h⟩ := performOp_next op s
      rw [performAll, h, andThen_next]
      exact ih _
    | wait us => exact ih s
    | done c => exact ih s

theorem levelsAfter_nib (la : LineAssignment) (v : Nibble) (e : Expander) :
    levelsAfter (nib la v) e = nibLevels la v e := rfl

theorem levelsAfter_send (la : LineAssignment) (b : Byte) (rs : Bool) (e : Expander) :
    levelsAfter (send la b rs) e = sendLevels la b rs e := rfl

/-- PULSE leaves E low and all levels committed (40_sequencer R406). -/
theorem levelsAfter_pulse_lines {la : LineAssignment} (hv : la.valid = true) (e : Expander) :
    (levelsAfter (pulse la) e).phys.getLsbD la.en = false
      ∧ (levelsAfter (pulse la) e).phys = (levelsAfter (pulse la) e).staged := by
  obtain ⟨⟨-, hen, -⟩, -⟩ := lines_distinct hv
  refine ⟨?_, rfl⟩
  show (setLevelBit _ la.en false).getLsbD la.en = false
  rw [getLsbD_setLevelBit, if_pos ⟨rfl, hen⟩]

/-- SEND leaves E low, RS at its level, the low nibble on the data lines and all levels committed
(40_sequencer R406). -/
theorem sendLevels_lines {la : LineAssignment} (hv : la.valid = true) (b : Byte) (rs : Bool)
    (e : Expander) :
    (sendLevels la b rs e).phys.getLsbD la.en = false
      ∧ (sendLevels la b rs e).phys.getLsbD la.rs = rs
      ∧ lineNibble la (sendLevels la b rs e).phys = lowNibble b
      ∧ (sendLevels la b rs e).phys = (sendLevels la b rs e).staged := by
  obtain ⟨⟨hrs, -⟩, -⟩ := lines_distinct hv
  obtain ⟨hcommitted, -, hselect, -⟩ := nibLevels_lines hv (highNibble b)
    (e.setLevel ⟨la.rs, rs, .now⟩)
  obtain ⟨hcommitted', henable, hselect', hnibble⟩ := nibLevels_lines hv (lowNibble b)
    (nibLevels la (highNibble b) (e.setLevel ⟨la.rs, rs, .now⟩))
  refine ⟨henable, hselect'.trans ?_, hnibble, hcommitted'⟩
  rw [← hcommitted, hselect, setLevel_staged, getLsbD_setLevelBit, if_pos ⟨rfl, hrs⟩]

/-! ## The decoder -/

/-- The decoder gives a CREATE_CHAR its eight rows. -/
theorem wellFormed_of_decode {w : Request} {i : Instr} (h : decode w = .ok i) :
    WellFormed i = true := by
  simp only [decode] at h
  split at h
  all_goals cases h
  all_goals rfl

end Sys2Proof.Machine
end

section
open Sys2Proof Sys2Proof.Machine

/-- Settles O55: performing a list moves the levels by its operations, and the levels after each
primitive are known. -/
theorem lineLevelsAfterPrimitives : Obligations.LineLevelsAfterPrimitives := by
  unfold Obligations.LineLevelsAfterPrimitives
  intro s v b rs hv la
  refine ⟨?_, ?_, ?_⟩
  · obtain ⟨l, k, hp⟩ := performAll_levels (pulse la) s
    exact ⟨_, hp, levelsAfter_pulse_lines hv s.expander⟩
  · obtain ⟨l, k, hp⟩ := performAll_levels (nib la v) s
    obtain ⟨hcommitted, henable, -, hnibble⟩ := nibLevels_lines hv v s.expander
    exact ⟨_, hp, henable, hnibble, hcommitted⟩
  · obtain ⟨l, k, hp⟩ := performAll_levels (send la b rs) s
    exact ⟨_, hp, sendLevels_lines hv b rs s.expander⟩

/-- Settles O56: SEND is one run of its word, apart from the levels it leaves. -/
theorem sendDeliversExactlyItsWord : Obligations.SendDeliversExactlyItsWord := by
  unfold Obligations.SendDeliversExactlyItsWord
  intro s b rs hv hs hp
  obtain ⟨l, k, hrun⟩ := lcdRun_next rs b s
  have hsend := performAll_send hv hs hp b rs
  rw [hrun, mapNext_next] at hsend
  exact ⟨_, _, hsend, hrun, rfl, rfl,
    ⟨⟨rfl, rfl, rfl, rfl, rfl, rfl⟩, ⟨rfl, rfl⟩, ⟨rfl, rfl, rfl⟩, ⟨rfl, rfl⟩, rfl⟩,
    enableSettled_nibLevels (s := s) hv (lowNibble b) _⟩

/-- Settles O6: the block is ready, so the cycle takes the request, and the request decodes. -/
theorem stepRunsTheDecodedRequest : Obligations.StepRunsTheDecodedRequest := by
  unfold Obligations.StepRunsTheDecodedRequest
  intro s i hv hc hr hready hvalid hd
  refine ⟨wellFormed_of_decode hd, ?_⟩
  rw [step_valid hv, cycle_quiet hc hr, blockCycle_accept hready hvalid]
  simp only [acceptCycle, hd]

/-- Settles O12: the lists are their definitions, and the bits of SEND's two nibbles those of its
byte. -/
theorem primitivesAreTheirLists : Obligations.PrimitivesAreTheirLists := by
  unfold Obligations.PrimitivesAreTheirLists
  intro la v b rs now later p
  refine ⟨rfl, rfl, ?_, rfl, rfl⟩
  simp (disch := decide) only [send, nib, getLsbD_highNibble, getLsbD_lowNibble]
  rfl

/-- Settles O14: the sizes of a list are the sums of those of its parts. -/
theorem listSizesAreTheSpecs : Obligations.ListSizesAreTheSpecs := by
  unfold Obligations.ListSizesAreTheSpecs
  intro la b r0 r1 r2 r3 r4 r5 r6 r7 v rs fn dc em sizes
  refine ⟨rfl, listSizes_nib la v, listSizes_send la b rs, ?_, listSizes_beginList la fn dc em, ?_⟩
  · exact (listSizes_append _ _).trans (by rw [cmd, listSizes_send, listSizes_wait]; rfl)
  · refine (listSizes_append _ _).trans ?_
    rw [cmd, listSizes_send, listSizes_flatMap_data]
    show (21, 15, 6, 104) + 8 • (21, 15, 6, 104) = (189, 135, 54, 936)
    decide

end

/-! # BEGIN: the state it leaves, the nine states of its list, and what performing it does -/

section
namespace Sys2Proof.Machine

/-! ## The values that BEGIN writes -/

/-- FN', its two conditions written out (41_initialization R502). -/
theorem beginFunction_eq (one : Bool) (rows : Byte) (size : CharSize) :
    beginFunction one rows size = (if rows.toNat > 1 then 0x08 else 0x00)
      ||| (if size = .dots5x10 ∧ (one = false ∨ rows.toNat = 1) then 0x04 else 0x00) := by
  simp [beginFunction, twoLine, tallFont, flagN, flagF]

/-- ROFF', its sum reduced (41_initialization R503). -/
theorem beginOffsets_eq (cols : Byte) :
    beginOffsets cols = ⟨0x00, 0x40, cols, BitVec.ofNat 8 ((0x40 + cols.toNat) % 256)⟩ :=
  congrArg (RowOffsets.mk 0x00 0x40 cols) (BitVec.eq_of_toNat_eq (by simp))

/-! ## The states that the requests for the geometry leave -/

/-- `s` after a BEGIN (41_initialization R510). -/
def begun (cols rows : Byte) (size : CharSize) (s : State) : State :=
  let fn := beginFunction s.cfg.font10OneLineOnly rows size
  accepted (beginList s.cfg.la fn beginDisplay beginEntry) 0
    (s.configure fn beginDisplay beginEntry rows (beginOffsets cols))

/-- BEGIN completes in every state. -/
theorem exec_begin (cols rows : Byte) (size : CharSize) (s : State) :
    exec (.begin cols rows size) s = .next (begun cols rows size s) := rfl

/-- SET_ROW_OFFSETS completes in every state (43_addressing_data R710). -/
theorem exec_setRowOffsets (o0 o1 o2 o3 : Byte) (s : State) :
    exec (.setRowOffsets o0 o1 o2 o3) s = .next (accepted [] 0 (s.setRoff ⟨o0, o1, o2, o3⟩)) := rfl

/-- SET_CURSOR faults, or is accepted with no shadow written (43_addressing_data R720). -/
theorem exec_setCursor_cases (col row : Byte) (s : State) :
    (∃ c, exec (.setCursor col row) s = .next (faulted c s))
      ∨ ∃ ops, exec (.setCursor col row) s = .next (accepted ops 0 s) := by
  show (∃ c, execSetCursor col row s = _) ∨ ∃ ops, execSetCursor col row s = _
  unfold execSetCursor
  split
  · split
    · exact .inl ⟨_, rfl⟩
    · split
      · exact .inr ⟨_, rfl⟩
      · exact .inl ⟨_, rfl⟩
  · exact .inl ⟨_, rfl⟩

/-! ## The initialization states -/

/-- The positions of a state's slice of L_BEGIN, the first and the last (41_initialization R501). -/
def InitState.range : InitState → Nat × Nat
  | .power => (0, 2)
  | .coax1 => (3, 13)
  | .coax2 => (14, 24)
  | .coax3 => (25, 35)
  | .fourBit => (36, 45)
  | .func => (46, 66)
  | .disp => (67, 87)
  | .clear => (88, 109)
  | .entry => (110, 130)

/-- The ranges are the model's: a position is in the range of the state it belongs to, and in no
other. -/
theorem initStateAt_eq_some_iff (st : InitState) (p : Nat) :
    initStateAt p = some st ↔ st.range.1 ≤ p ∧ p ≤ st.range.2 := by
  constructor
  · intro h
    unfold initStateAt at h
    repeat' split at h
    all_goals cases h
    all_goals
      simp only [InitState.range]
      omega
  · rintro ⟨hlo, hhi⟩
    cases st
    all_goals
      simp only [InitState.range] at hlo hhi
      simp (disch := omega) only [initStateAt, if_pos, if_neg]

/-- L_BEGIN is the lists of the nine states in order (41_initialization R508). -/
theorem beginList_eq_flatMap (la : LineAssignment) (fn dc em : Byte) :
    beginList la fn dc em = [InitState.power, .coax1, .coax2, .coax3, .fourBit, .func, .disp, .clear,
      .entry].flatMap (initSlice la fn dc em) := by
  simp only [beginList, List.flatMap_cons, List.flatMap_nil, initSlice, List.append_assoc,
    List.append_nil]

/-- The micro-operations of L_BEGIN in a state's range are the state's list. -/
theorem slice_beginList (la : LineAssignment) (fn dc em : Byte) (st : InitState) :
    ((beginList la fn dc em).drop st.range.1).take (st.range.2 + 1 - st.range.1)
      = initSlice la fn dc em st := by
  cases st <;> rfl

end Sys2Proof.Machine
end

section
open Sys2Proof Sys2Proof.Machine

/-- Settles O58: L_BEGIN brings any LCD to the registers that the list carries, which are the shadows
that BEGIN writes. -/
theorem beginSynchronisesAnyLcd : Obligations.BeginSynchronisesAnyLcd := by
  unfold Obligations.BeginSynchronisesAnyLcd
  intro s cols rows size hv
  have hla : (begun cols rows size s).cfg.la.valid = true := (Bool.and_eq_true_iff.1 hv).1
  obtain ⟨u, hu, hlines, hp, hfn, hdc, hem⟩ :=
    (performsTo_beginList hla (beginFunction_legal s.cfg.font10OneLineOnly rows size)
      (by decide : beginDisplay &&& 0xF8 = 0) (by decide : beginEntry &&& 0xFC = 0)).done 0
  obtain ⟨-, hfn', hdc', hem', -, -⟩ := performAll_shadows hu
  exact ⟨_, u, exec_begin cols rows size s, hu,
    ⟨hp, hfn'.trans (congrArg some hfn.symm), hdc'.trans (congrArg some hdc.symm),
      hem'.trans (congrArg some hem.symm)⟩,
    hlines.settled, hlines.select, hlines.enable⟩

/-- Settles O13: each state's slice is at its range, and the ranges exclude each other. -/
theorem initStatesSliceTheBeginList : Obligations.InitStatesSliceTheBeginList := by
  unfold Obligations.InitStatesSliceTheBeginList
  intro la fn dc em
  refine ⟨beginList_eq_flatMap la fn dc em, fun st lo hi hmem => ?_⟩
  obtain ⟨rfl, rfl⟩ : st.range.1 = lo ∧ st.range.2 = hi := by
    simp only [List.mem_cons, List.not_mem_nil, or_false, Prod.mk.injEq] at hmem
    rcases hmem with ⟨rfl, rfl, rfl⟩ | ⟨rfl, rfl, rfl⟩ | ⟨rfl, rfl, rfl⟩ | ⟨rfl, rfl, rfl⟩
      | ⟨rfl, rfl, rfl⟩ | ⟨rfl, rfl, rfl⟩ | ⟨rfl, rfl, rfl⟩ | ⟨rfl, rfl, rfl⟩ | ⟨rfl, rfl, rfl⟩
    all_goals exact ⟨rfl, rfl⟩
  exact ⟨slice_beginList la fn dc em st, initStateAt_eq_some_iff st⟩

/-- Settles O15: the opcode alone decides the instruction, and the values BEGIN writes are those of
the rules. -/
theorem beginConfiguresAndLoads : Obligations.BeginConfiguresAndLoads := by
  unfold Obligations.BeginConfiguresAndLoads
  constructor
  · intro w hop
    simp only [decode, hop, CharSize.ofBit]
    rfl
  · intro s cols rows size n f
    rw [exec_begin, begun, beginFunction_eq, beginOffsets_eq]
    rfl

/-- Settles O17: each value that BEGIN writes is a function of its operands and the configuration. -/
theorem beginLeavesNoResidue : Obligations.BeginLeavesNoResidue := by
  unfold Obligations.BeginLeavesNoResidue
  intro s s' t t' cols rows size hcfg ht ht'
  rw [exec_begin] at ht ht'
  cases ht
  cases ht'
  simp [SameShadows, SameQueue, begun, hcfg]

/-- Settles O34: acceptance leaves the timer, the fault registers and the environment; a fault leaves
all but the fault registers. -/
theorem frameOfGeometryRequests : Obligations.FrameOfGeometryRequests := by
  unfold Obligations.FrameOfGeometryRequests
  intro s t cols rows o0 o1 o2 o3 col row size
  refine ⟨fun h => ?_, fun h => ?_, fun h => ?_⟩
  · rw [exec_begin] at h
    cases h
    simp [SameTimer, SameFault, SameEnvironment, begun]
  · rw [exec_setRowOffsets] at h
    cases h
    simp [SameTimer, SameFault, SameEnvironment]
  · rcases exec_setCursor_cases col row s with ⟨c, he⟩ | ⟨ops, he⟩
    all_goals
      rw [he] at h
      cases h
      simp [SameShadows, SameTimer, SameEnvironment, SameFault, SameQueue]

/-- Settles O29: each lone nibble is a function set whose N and F are two bits of the free value of
the state's counter. -/
theorem loneNibblesSelectTheBus : Obligations.LoneNibblesSelectTheBus := by
  unfold Obligations.LoneNibblesSelectTheBus
  intro s
  let low := Config.freeNibble s.fresh
  exact ⟨low.getLsbD 3, low.getLsbD 2, low.getLsbD 3, low.getLsbD 2, rfl, rfl⟩

/-- Settles O16: each state's list is its definition. -/
theorem initStatesAreTheirLists : Obligations.InitStatesAreTheirLists := by
  unfold Obligations.InitStatesAreTheirLists
  intro la fn dc em slice
  exact ⟨rfl, rfl, rfl, rfl, rfl, rfl, rfl, rfl, rfl⟩

/-- Settles O2: the decoders evaluate each of the eleven words. -/
theorem specWordsDecode : Obligations.SpecWordsDecode := by
  unfold Obligations.SpecWordsDecode
  decide

end

/-! # The register operations: the requests without operands, the toggles and what each leaves -/

section
namespace Sys2Proof.Machine

/-! ## The opcodes without operands -/

/-- The requests from CLEAR to SCROLL_RIGHT have no operands: their opcode decides the instruction. -/
theorem decode_eq_of_opcode {w w' : Request} (h : Request.byte 0 w = Request.byte 0 w')
    (hlo : 0x01 ≤ (Request.byte 0 w').toNat) (hhi : (Request.byte 0 w').toNat ≤ 0x0E) :
    decode w = decode w' := by
  simp only [decode, h]
  split
  case h_1 | h_16 | h_17 | h_18 | h_19 | h_20 => omega
  all_goals rfl

/-- An opcode without operands means what its word with all other bytes 0 means. -/
theorem decode_of_opcode {w : Request} {b : Byte} {i : Instr} (h : Request.byte 0 w = b)
    (hlo : 0x01 ≤ b.toNat) (hhi : b.toNat ≤ 0x0E) (hi : decode (Request.ofBytes [b]) = .ok i) :
    decode w = .ok i := by
  have hb : Request.byte 0 (Request.ofBytes [b]) = b := byte_zero_ofBytes_cons b []
  rw [← hi]
  exact decode_eq_of_opcode (h.trans hb.symm) (by rwa [hb]) (by rwa [hb])

/-! ## Flags set and cleared in turn (42_register_ops R625) -/

theorem clearFlag_setFlag (m v : Byte) : clearFlag m (setFlag m v) = v &&& ~~~m := by
  simp [clearFlag, setFlag, BitVec.and_or_distrib_right]

theorem setFlag_clearFlag (m v : Byte) : setFlag m (clearFlag m v) = v ||| m := by
  apply BitVec.eq_of_getLsbD_eq
  intro k hk
  simp [clearFlag, setFlag, hk, Bool.or_and_distrib_right]

/-- Clearing a flag changes nothing exactly when the flag was clear. -/
theorem and_not_eq_self_iff (m v : Byte) : v &&& ~~~m = v ↔ v &&& m = 0 := by
  simp only [BitVec.eq_of_getLsbD_eq_iff]
  refine forall₂_congr fun k hk => ?_
  simp [hk]

/-- Setting a flag changes nothing exactly when the flag was set. -/
theorem or_eq_self_iff (m v : Byte) : v ||| m = v ↔ v &&& m = m := by
  simp only [BitVec.eq_of_getLsbD_eq_iff]
  refine forall₂_congr fun k _ => ?_
  simp

/-! ## Two toggles of one register, the second in the state the first leaves -/

/-- Two toggles of DC that take `v` to `v'`: the second sends the byte of the register it leaves. -/
theorem toggleDc_twice {f g : Byte → Byte} {s : State} {v v' : Byte} {Restored : Prop}
    (hs : s.shv = true) (hv : s.dc = some v) (hval : g (f v) = v') (hprior : v' = v ↔ Restored) :
    ∃ t u, toggleDc f s = .next t ∧ toggleDc g t = .next u
      ∧ u.dc = some v' ∧ (u.dc = s.dc ↔ Restored)
      ∧ u.uq = send s.cfg.la (0x08 ||| v') false ++ [.done 0] := by
  subst hval
  refine ⟨_, _, toggleDc_configured f hs hv, toggleDc_configured g (v := f v) hs rfl, rfl, ?_, rfl⟩
  simpa [hv] using hprior

/-- Two toggles of EM, as `toggleDc_twice`. -/
theorem toggleEm_twice {f g : Byte → Byte} {s : State} {v v' : Byte} {Restored : Prop}
    (hs : s.shv = true) (hv : s.em = some v) (hval : g (f v) = v') (hprior : v' = v ↔ Restored) :
    ∃ t u, toggleEm f s = .next t ∧ toggleEm g t = .next u
      ∧ u.em = some v' ∧ (u.em = s.em ↔ Restored)
      ∧ u.uq = send s.cfg.la (0x04 ||| v') false ++ [.done 0] := by
  subst hval
  refine ⟨_, _, toggleEm_configured f hs hv, toggleEm_configured g (v := f v) hs rfl, rfl, ?_, rfl⟩
  simpa [hv] using hprior

/-! ## Which shared operation a request is -/

theorem exec_displayToggle {i : Instr}
    (hi : i ∈ [Instr.display, .noDisplay, .cursor, .noCursor, .blink, .noBlink]) (s : State) :
    ∃ f, exec i s = toggleDc f s := by
  simp only [List.mem_cons, List.not_mem_nil, or_false] at hi
  rcases hi with rfl | rfl | rfl | rfl | rfl | rfl
  all_goals exact ⟨_, rfl⟩

theorem exec_entryToggle {i : Instr}
    (hi : i ∈ [Instr.leftToRight, .rightToLeft, .autoscroll, .noAutoscroll]) (s : State) :
    ∃ f, exec i s = toggleEm f s := by
  simp only [List.mem_cons, List.not_mem_nil, or_false] at hi
  rcases hi with rfl | rfl | rfl | rfl
  all_goals exact ⟨_, rfl⟩

/-- The requests that write no shadow and never fault are accepted in every state. -/
theorem exec_sendingRequest {i : Instr} {slot b : Byte} {bitmap : List Byte}
    (hi : i ∈ [Instr.clear, .home, .scrollDisplayLeft, .scrollDisplayRight,
      .createChar slot bitmap, .write b, .command b]) (s : State) :
    ∃ ops c, exec i s = .next (accepted ops c s) := by
  simp only [List.mem_cons, List.not_mem_nil, or_false] at hi
  rcases hi with rfl | rfl | rfl | rfl | rfl | rfl | rfl
  all_goals exact ⟨_, _, rfl⟩

/-! ## Frames -/

/-- Acceptance leaves all but the queue, BUSY and the trace. -/
theorem accepted_frame (ops : List MicroOp) (c : Byte) (s : State) :
    SameShadows s (accepted ops c s) ∧ SameTimer s (accepted ops c s)
      ∧ SameFault s (accepted ops c s) ∧ SameEnvironment s (accepted ops c s) := by
  simp [SameShadows, SameTimer, SameFault, SameEnvironment]

end Sys2Proof.Machine
end

section
open Sys2Proof Sys2Proof.Machine

/-- Settles O19: each opcode decides its toggle, and a toggle of DC is `toggleDc` of its flag. -/
theorem displayTogglesFollowTheirRules : Obligations.DisplayTogglesFollowTheirRules := by
  unfold Obligations.DisplayTogglesFollowTheirRules
  intro p hp
  simp only [List.mem_cons, List.not_mem_nil, or_false] at hp
  rcases hp with rfl | rfl | rfl | rfl | rfl | rfl
  all_goals exact ⟨fun _ hop => decode_of_opcode hop (by decide) (by decide) rfl,
    fun _ _ hs hv => toggleDc_configured _ hs hv, fun _ hs => toggleDc_unconfigured _ hs⟩

/-- Settles O20: each opcode decides its toggle, and a toggle of EM is `toggleEm` of its flag. -/
theorem entryTogglesFollowTheirRules : Obligations.EntryTogglesFollowTheirRules := by
  unfold Obligations.EntryTogglesFollowTheirRules
  intro p hp
  simp only [List.mem_cons, List.not_mem_nil, or_false] at hp
  rcases hp with rfl | rfl | rfl | rfl
  all_goals exact ⟨fun _ hop => decode_of_opcode hop (by decide) (by decide) rfl,
    fun _ _ hs hv => toggleEm_configured _ hs hv, fun _ hs => toggleEm_unconfigured _ hs⟩

/-- Settles O21: the first toggle leaves the block configured, so the second one runs on its value, and
of the two the last decides the bit. -/
theorem togglePairRoundTrip : Obligations.TogglePairRoundTrip := by
  unfold Obligations.TogglePairRoundTrip
  constructor
  · intro p hp s v hs hv
    simp only [List.mem_cons, List.not_mem_nil, or_false] at hp
    rcases hp with rfl | rfl | rfl
    all_goals exact
      ⟨toggleDc_twice hs hv (clearFlag_setFlag _ v) (and_not_eq_self_iff _ v),
        toggleDc_twice hs hv (setFlag_clearFlag _ v) (or_eq_self_iff _ v)⟩
  · intro p hp s v hs hv
    simp only [List.mem_cons, List.not_mem_nil, or_false] at hp
    rcases hp with rfl | rfl
    all_goals exact
      ⟨toggleEm_twice hs hv (clearFlag_setFlag _ v) (and_not_eq_self_iff _ v),
        toggleEm_twice hs hv (setFlag_clearFlag _ v) (or_eq_self_iff _ v)⟩

/-- Settles O33: a toggle is accepted with its register written, or faults. -/
theorem frameOfToggles : Obligations.FrameOfToggles := by
  unfold Obligations.FrameOfToggles
  intro i s t h
  constructor
  · intro hi
    obtain ⟨f, hf⟩ := exec_displayToggle hi s
    rcases toggleDc_cases f s with ⟨v, -, -, he⟩ | ⟨-, he⟩
    all_goals
      rw [hf, he] at h
      cases h
      simp [SameTimer, SameEnvironment, SameFault, SameQueue]
  · intro hi
    obtain ⟨f, hf⟩ := exec_entryToggle hi s
    rcases toggleEm_cases f s with ⟨v, -, -, he⟩ | ⟨-, he⟩
    all_goals
      rw [hf, he] at h
      cases h
      simp [SameTimer, SameEnvironment, SameFault, SameQueue]

/-- Settles O18: each opcode decides its request, which is accepted in every state. -/
theorem clearAndHomeSendAndSettle : Obligations.ClearAndHomeSendAndSettle := by
  unfold Obligations.ClearAndHomeSendAndSettle
  refine ⟨fun _ hop => ?_, fun _ hop => ?_, fun s => ⟨accept_eq _ 0 s, accept_eq _ 0 s⟩⟩
  all_goals exact decode_of_opcode hop (by decide) (by decide) rfl

/-- Settles O22: each opcode decides its request, which is accepted in every state. -/
theorem scrollsSendTheirByte : Obligations.ScrollsSendTheirByte := by
  unfold Obligations.ScrollsSendTheirByte
  refine ⟨fun _ hop => ?_, fun _ hop => ?_, fun s => ⟨accept_eq _ 0 s, accept_eq _ 0 s⟩⟩
  all_goals exact decode_of_opcode hop (by decide) (by decide) rfl

/-- Settles O32: each of the seven is accepted with no shadow written. -/
theorem frameOfSendingRequests : Obligations.FrameOfSendingRequests := by
  unfold Obligations.FrameOfSendingRequests
  intro i s t slot b bitmap hi h
  obtain ⟨ops, c, he⟩ := exec_sendingRequest hi s
  rw [he] at h
  cases h
  exact accepted_frame ops c s

end

/-! # Addressing and data: the cursor's cases, the glyph's list and the opcodes with operands -/

section
namespace Sys2Proof.Machine

/-! ## The row-offset table and the DDRAM address (43_addressing_data R720) -/

theorem entry_eq_none {r : Nat} (h : 3 < r) (table : RowOffsets) : table.entry r = none := by
  match r, h with
  | _ + 4, _ => rfl

theorem entry_eq_some {r : Nat} {table : RowOffsets} {o : Byte}
    (h : r = 0 ∧ o = table.o0 ∨ r = 1 ∧ o = table.o1 ∨ r = 2 ∧ o = table.o2 ∨ r = 3 ∧ o = table.o3) :
    table.entry r = some o := by
  rcases h with ⟨rfl, rfl⟩ | ⟨rfl, rfl⟩ | ⟨rfl, rfl⟩ | ⟨rfl, rfl⟩
  all_goals rfl

/-- The address's seven bits in a byte are its sum reduced. -/
theorem setWidth_ddramAddress (col offset : Byte) :
    (ddramAddress col offset).setWidth 8 = BitVec.ofNat 8 ((col.toNat + offset.toNat) % 128) := by
  apply BitVec.eq_of_toNat_eq
  simp only [ddramAddress, BitVec.toNat_setWidth, BitVec.toNat_ofNat]
  omega

/-! ## SET_CURSOR, a case at a time (43_addressing_data R720, 60_exceptions R805) -/

section
variable {s : State} {rc : Byte} {table : RowOffsets} (col row : Byte)

theorem exec_setCursor_unconfigured (hs : s.shv = false) :
    exec (.setCursor col row) s = .next (faulted .notConfigured s) := by
  show execSetCursor col row s = _
  simp only [execSetCursor, hs, raiseFault_eq]

theorem exec_setCursor_noRows (hs : s.shv = true) (hrc : s.rc = some 0)
    (ht : s.roff = some table) :
    exec (.setCursor col row) s = .next (faulted .rowOutOfTable s) := by
  show execSetCursor col row s = _
  simp only [execSetCursor, hs, hrc, ht, if_true, raiseFault_eq]

theorem exec_setCursor_noEntry (hs : s.shv = true) (hrc : s.rc = some rc)
    (ht : s.roff = some table) (h0 : rc ≠ 0) (he : table.entry (wrappedRow row rc) = none) :
    exec (.setCursor col row) s = .next (faulted .rowOutOfTable s) := by
  show execSetCursor col row s = _
  simp only [execSetCursor, hs, hrc, ht, if_neg h0, he, raiseFault_eq]

theorem exec_setCursor_entry (hs : s.shv = true) (hrc : s.rc = some rc)
    (ht : s.roff = some table) (h0 : rc ≠ 0) {offset : Byte}
    (he : table.entry (wrappedRow row rc) = some offset) :
    exec (.setCursor col row) s
      = .next (accepted (cmd s.cfg.la (byteDdram (ddramAddress col offset))) 0 s) := by
  show execSetCursor col row s = _
  simp only [execSetCursor, hs, hrc, ht, if_neg h0, he, accept_eq]

end

/-- CREATE_CHAR completes in every state (43_addressing_data R730). -/
theorem exec_createChar (slot : Byte) (bitmap : List Byte) (s : State) :
    exec (.createChar slot bitmap) s
      = .next (accepted (cmd s.cfg.la (byteCgram slot) ++ bitmap.flatMap (data s.cfg.la)) 0 s) := rfl

/-! ## The opcodes with byte operands (30_encoding R302) -/

section
variable {w : Request}

theorem decode_setRowOffsets (h : Request.byte 0 w = 0x0F) : decode w = .ok (.setRowOffsets
    (Request.byte 1 w) (Request.byte 2 w) (Request.byte 3 w) (Request.byte 4 w)) := by
  simp only [decode, h]
  rfl

theorem decode_setCursor (h : Request.byte 0 w = 0x10) :
    decode w = .ok (.setCursor (Request.byte 1 w) (Request.byte 2 w)) := by
  simp only [decode, h]
  rfl

theorem decode_createChar (h : Request.byte 0 w = 0x11) :
    decode w = .ok (.createChar (Request.byte 1 w)
      [Request.byte 2 w, Request.byte 3 w, Request.byte 4 w, Request.byte 5 w, Request.byte 6 w,
        Request.byte 7 w, Request.byte 8 w, Request.byte 9 w]) := by
  simp only [decode, h]
  rfl

theorem decode_write (h : Request.byte 0 w = 0x12) : decode w = .ok (.write (Request.byte 1 w)) := by
  simp only [decode, h]
  rfl

theorem decode_command (h : Request.byte 0 w = 0x13) :
    decode w = .ok (.command (Request.byte 1 w)) := by
  simp only [decode, h]
  rfl

end

end Sys2Proof.Machine
end

section
open Sys2Proof Sys2Proof.Machine

/-- Settles O24: a wrapped row past the table has no entry, and the byte of an entry is 0x80 with the
sum reduced. -/
theorem setCursorAddressesOrFaults : Obligations.SetCursorAddressesOrFaults := by
  unfold Obligations.SetCursorAddressesOrFaults
  refine ⟨fun _ => decode_setCursor, fun s col row => ⟨exec_setCursor_unconfigured col row, ?_⟩⟩
  intro rc table hs hrc ht r
  refine ⟨?_, fun h0 hr => ?_, fun h0 offset ho => ?_⟩
  · rintro rfl
    exact exec_setCursor_noRows col row hs hrc ht
  · exact exec_setCursor_noEntry col row hs hrc ht h0 (entry_eq_none hr table)
  · rw [exec_setCursor_entry col row hs hrc ht h0 (entry_eq_some ho), byteDdram,
      setWidth_ddramAddress]
    rfl

/-- Settles O23: the opcode decides the instruction, which is accepted with the table written. -/
theorem setRowOffsetsReplacesTheTable : Obligations.SetRowOffsetsReplacesTheTable := by
  unfold Obligations.SetRowOffsetsReplacesTheTable
  exact ⟨fun _ => decode_setRowOffsets, fun s o0 o1 o2 o3 => exec_setRowOffsets o0 o1 o2 o3 s⟩

/-- Settles O25: the rows' list is their DATA in order. -/
theorem createCharUploadsTheGlyph : Obligations.CreateCharUploadsTheGlyph := by
  unfold Obligations.CreateCharUploadsTheGlyph
  refine ⟨fun _ => decode_createChar, fun s slot r0 r1 r2 r3 r4 r5 r6 r7 => ?_⟩
  rw [exec_createChar]
  simp only [List.flatMap_cons, List.flatMap_nil, List.append_nil, List.append_assoc]
  rfl

/-- Settles O26: the opcode decides the instruction, which is accepted with the count 1. -/
theorem writeSendsDataAndCountsOne : Obligations.WriteSendsDataAndCountsOne := by
  unfold Obligations.WriteSendsDataAndCountsOne
  exact ⟨fun _ => decode_write, fun s b => accept_eq (data s.cfg.la b) 1 s⟩

/-- Settles O27: the opcode decides the instruction, which is accepted with no shadow written. -/
theorem commandSendsRaw : Obligations.CommandSendsRaw := by
  unfold Obligations.CommandSendsRaw
  exact ⟨fun _ => decode_command, fun s b => accept_eq (cmd s.cfg.la b) 0 s⟩

end

/-! # Faults and holds: what faults a request, what a fault leaves, and the cycles that change nothing -/

section
namespace Sys2Proof.Machine

/-! ## The wiring check (60_exceptions R806) -/

/-- A block that fails its configuration check has no step. -/
theorem step_invalid {s : State} (h : ¬ s.cfg.valid = true) : step s = .refused .invalidInstance :=
  if_neg h

/-! ## The causes of a fault (60_exceptions R800 to R804) -/

/-- The request on the port of `s` has a cause for the fault `c`. -/
def FaultCause (s : State) (c : FaultCode) : Prop :=
  let op := (Request.byte 0 s.host.data).toNat
  (c = .illegalRequest ∧ 0x14 ≤ op)
    ∨ (c = .notConfigured ∧ ((0x03 ≤ op ∧ op ≤ 0x0C) ∨ op = 0x10) ∧ s.shv = false)
    ∨ (c = .rowOutOfTable ∧ op = 0x10 ∧ s.shv = true
      ∧ ∃ rc, s.rc = some rc ∧ (rc = 0 ∨ 4 ≤ (Request.byte 2 s.host.data).toNat % rc.toNat))

/-- A configured block holds a value in every register that a request reads (10_state R112). -/
theorem registers_of_configured {s : State} (h : shadowsMatchShv s = true) (hs : s.shv = true) :
    (∃ v, s.dc = some v) ∧ (∃ v, s.em = some v) ∧ (∃ rc, s.rc = some rc)
      ∧ ∃ table, s.roff = some table := by
  simp only [shadowsMatchShv, hs, if_true, Bool.and_eq_true, Option.isSome_iff_exists] at h
  obtain ⟨⟨⟨⟨-, hdc⟩, hem⟩, hrc⟩, hroff⟩ := h
  exact ⟨hdc, hem, hrc, hroff⟩

/-- The table has no entry only for a row past it. -/
theorem four_le_of_entry_eq_none {r : Nat} {table : RowOffsets} (h : table.entry r = none) :
    4 ≤ r := by
  match r with
  | 0 | 1 | 2 | 3 => cases h
  | _ + 4 => exact Nat.le_add_left ..

section
variable {s t : State} (hm : shadowsMatchShv s = true) (hf : t.fault ≠ s.fault)
include hm hf

/-- A toggle of DC faults only while SHV = 0 (60_exceptions R802). -/
theorem toggleDc_fault {f : Byte → Byte} (h : toggleDc f s = .next t) :
    t = faulted .notConfigured s ∧ s.shv = false := by
  cases hs : s.shv with
  | false => cases (toggleDc_unconfigured f hs).symm.trans h; exact ⟨rfl, rfl⟩
  | true =>
    obtain ⟨⟨v, hdc⟩, -⟩ := registers_of_configured hm hs
    cases (toggleDc_configured f hs hdc).symm.trans h
    exact absurd rfl hf

/-- A toggle of EM faults only while SHV = 0 (60_exceptions R802). -/
theorem toggleEm_fault {f : Byte → Byte} (h : toggleEm f s = .next t) :
    t = faulted .notConfigured s ∧ s.shv = false := by
  cases hs : s.shv with
  | false => cases (toggleEm_unconfigured f hs).symm.trans h; exact ⟨rfl, rfl⟩
  | true =>
    obtain ⟨-, ⟨v, hem⟩, -⟩ := registers_of_configured hm hs
    cases (toggleEm_configured f hs hem).symm.trans h
    exact absurd rfl hf

/-- SET_CURSOR faults while SHV = 0, and otherwise only where the table has no entry for the row
(60_exceptions R803, R805). -/
theorem execSetCursor_fault {col row : Byte} (h : execSetCursor col row s = .next t) :
    (t = faulted .notConfigured s ∧ s.shv = false)
    ∨ (t = faulted .rowOutOfTable s ∧ s.shv = true
      ∧ ∃ rc, s.rc = some rc ∧ (rc = 0 ∨ 4 ≤ row.toNat % rc.toNat)) := by
  cases hs : s.shv with
  | false => cases (exec_setCursor_unconfigured col row hs).symm.trans h; exact .inl ⟨rfl, rfl⟩
  | true =>
    obtain ⟨-, -, ⟨rc, hrc⟩, table, htable⟩ := registers_of_configured hm hs
    refine .inr ?_
    by_cases h0 : rc = 0
    · subst h0
      cases (exec_setCursor_noRows col row hs hrc htable).symm.trans h
      exact ⟨rfl, rfl, 0, hrc, .inl rfl⟩
    cases he : table.entry (wrappedRow row rc) with
    | some offset =>
      cases (exec_setCursor_entry col row hs hrc htable h0 he).symm.trans h
      exact absurd rfl hf
    | none =>
      cases (exec_setCursor_noEntry col row hs hrc htable h0 he).symm.trans h
      exact ⟨rfl, rfl, rc, hrc, .inr (four_le_of_entry_eq_none he)⟩

/-- A request that decodes and changes FAULT is a toggle or a SET_CURSOR with a cause, and does
nothing else. -/
theorem exec_fault {i : Instr} (hi : decode s.host.data = .ok i) (h : exec i s = .next t) :
    ∃ c, t = faulted c s ∧ FaultCause s c := by
  simp only [decode] at hi
  split at hi
  case h_4 | h_5 | h_6 | h_7 | h_8 | h_9 =>
    cases hi
    obtain ⟨rfl, hs⟩ := toggleDc_fault hm hf h
    exact ⟨_, rfl, .inr (.inl ⟨rfl, by omega, hs⟩)⟩
  case h_10 | h_11 | h_12 | h_13 =>
    cases hi
    obtain ⟨rfl, hs⟩ := toggleEm_fault hm hf h
    exact ⟨_, rfl, .inr (.inl ⟨rfl, by omega, hs⟩)⟩
  case h_17 hop =>
    cases hi
    rcases execSetCursor_fault hm hf h with ⟨rfl, hs⟩ | ⟨rfl, hrow⟩
    · exact ⟨_, rfl, .inr (.inl ⟨rfl, .inr hop, hs⟩)⟩
    · exact ⟨_, rfl, .inr (.inr ⟨rfl, hop, hrow⟩)⟩
  case h_21 => cases hi
  all_goals
    cases hi
    cases h
    exact absurd rfl hf

/-- A cycle that takes a request and changes FAULT enters a fault with a cause, and the port moves
on. -/
theorem acceptCycle_fault (h : acceptCycle s = .next t) :
    ∃ c, t = (faulted c s).releasePort ∧ FaultCause s c := by
  obtain ⟨u, hu, rfl⟩ := mapNext_eq_next.1 h
  split at hu
  · next i hi =>
    obtain ⟨c, rfl, hc⟩ := exec_fault (t := u) hm hf hi hu
    exact ⟨c, rfl, hc⟩
  · next e he =>
    cases hu
    exact ⟨_, rfl, .inl ⟨rfl, (decode_error_iff _).1 ⟨e, he⟩⟩⟩

end

/-- An unassigned opcode faults and the port moves on (60_exceptions R801). -/
theorem acceptCycle_unassigned {s : State} (h : 0x14 ≤ (Request.byte 0 s.host.data).toNat) :
    acceptCycle s = .next (faulted .illegalRequest s).releasePort := by
  obtain ⟨e, he⟩ := (decode_error_iff s.host.data).2 h
  simp only [acceptCycle, he, raiseFault_eq, mapNext_next]

/-- A block with a fault code is not ready (10_state R125). -/
theorem ready_eq_false_of_fault {s : State} (h : s.fault ≠ .none) : s.ready = false :=
  Bool.eq_false_iff.2 fun hr => h ((ready_iff s).1 hr).2

/-! ## Holds (60_exceptions R812) -/

/-- A state that one cycle leaves as it is stays for ever. -/
theorem runCycles_of_step_self {s : State} (h : step s = .next s) (k : Nat) :
    runCycles k s = .next s := by
  induction k with
  | zero => rfl
  | succ k ih => rw [runCycles, h, andThen_next, ih]

/-- An idle block with nothing on its port does nothing. -/
theorem blockCycle_idle {s : State} (hb : s.busy = false) (ht : s.tmr = 0)
    (hp : s.host.valid = false) : blockCycle s = .next s := by
  simp [blockCycle, hb, ht, hp]

/-- A silent expander's script does not move on. -/
theorem popAck_of_silent {s : State} (h : s.expander.acks = []) : s.popAck = s := by
  have he : s.expander.popAck = s.expander := by
    rw [Expander.popAck, h, List.tail_nil, ← h]
  rw [State.popAck, he]
  rfl

end Sys2Proof.Machine
end

section
open Sys2Proof Sys2Proof.Machine

/-- Settles O43: with the invariant, a cycle that changes FAULT takes a request, and a request faults
only for its cause. -/
theorem onlyTheListedFaults : Obligations.OnlyTheListedFaults := by
  unfold Obligations.OnlyTheListedFaults
  intro s t hinv hrst h hfault
  rcases step_kinds h with ⟨hr, -⟩ | ⟨-, hready, hvalid, e, l, k, ha⟩ | ⟨-, hp⟩
  · simp [hrst] at hr
  · obtain ⟨c, rfl, hcause⟩ := acceptCycle_fault (hinv.served e l k).configured hfault ha
    have hraised : c ≠ .none := fun hc => hfault (hc.trans ((ready_iff s).1 hready).2.symm)
    exact ⟨hready, hvalid, hcause, rfl, rfl, ⟨rfl, rfl, rfl, rfl, rfl, rfl⟩, ⟨rfl, rfl⟩,
      ⟨rfl, rfl, rfl⟩, ready_eq_false_of_fault hraised⟩
  · obtain ⟨-, ⟨hkept, -⟩, -⟩ := step_outside h hrst hp
    exact absurd hkept hfault

/-- Settles O44: a faulted block takes no request, so without `rst` the fault registers stay. -/
theorem faultIsStickyUntilReset : Obligations.FaultIsStickyUntilReset := by
  unfold Obligations.FaultIsStickyUntilReset
  intro s t hfault h
  have hready := ready_eq_false_of_fault hfault
  refine ⟨hready, ?_, fun hrst => ?_, fun hrst => ?_⟩
  · rw [Bool.eq_false_iff, Ne, final_iff]
    rintro ⟨-, -, hnone, -⟩
    exact hfault hnone
  · obtain ⟨-, hkept, -⟩ := step_outside h hrst (.inl hready)
    exact hkept
  · rcases step_kinds h with ⟨-, e, l, k, rfl⟩ | ⟨hr, -⟩ | ⟨hr, -⟩
    · exact ⟨rfl, ⟨rfl, rfl, rfl, rfl, rfl, rfl⟩, ⟨rfl, rfl⟩, ⟨rfl, rfl, rfl⟩⟩
    all_goals simp [hrst] at hr

/-- Settles O4: the cycle takes the request, which does not decode. -/
theorem unassignedOpcodesFault : Obligations.UnassignedOpcodesFault := by
  unfold Obligations.UnassignedOpcodesFault
  intro s hv hc hr hready hvalid hop
  rw [step_valid hv, cycle_quiet hc hr, blockCycle_accept hready hvalid, acceptCycle_unassigned hop]

/-- Settles O37: in both holds one cycle leaves the state as it is. -/
theorem holdsRaiseNothing : Obligations.HoldsRaiseNothing := by
  unfold Obligations.HoldsRaiseNothing
  intro s hv hc hr ht
  refine ⟨fun op rest hb hu he hacks hrest => runCycles_of_step_self ?_,
    fun hb hp => runCycles_of_step_self ?_⟩
  · have hsilent : s.expander.ackNow = false := by simp [Expander.ackNow, hacks, hrest]
    rw [(Sequencing.mk hv hc hr hb ht).step_unacknowledged he hu hsilent, popAck_of_silent hacks]
  · rw [step_valid hv, cycle_quiet hc hr, blockCycle_idle hb ht hp]

/-- Settles O8: either wiring fails the configuration check. -/
theorem miswiredInstanceIsRefused : Obligations.MiswiredInstanceIsRefused := by
  unfold Obligations.MiswiredInstanceIsRefused
  intro s hwiring
  refine step_invalid fun hv => ?_
  obtain ⟨hlt, hnodup⟩ := (LineAssignment.valid_iff s.cfg.la).1 (Bool.and_eq_true_iff.1 hv).1
  rcases hwiring with ⟨l, hl, h8⟩ | hdup
  · exact absurd (hlt l hl) (Nat.not_lt.2 h8)
  · exact hdup hnodup

end

/-! # Reset, a write to an own line by another client, and a COMMAND that the shadows do not follow

The hazards of 70_reset_and_hazards, and what a reset cycle leaves whatever it cuts off. -/

section
namespace Sys2Proof.Machine

/-! ## The other clients and reset -/

/-- A client about to write a line of the LineAssignment stops the model (70_reset_and_hazards R934). -/
theorem serveClients_own_line {s : State} {op : ExpOp} {rest : List (Option ExpOp)}
    (hc : s.clients = some op :: rest) (hl : op.line ∈ s.cfg.la.lines) :
    serveClients s = .refused .foreignLineWrite := by
  simp only [serveClients, hc, if_pos hl]

/-- With no other client about to act, a cycle with `rst` high is a reset cycle (60_exceptions R814). -/
theorem cycle_rst {s : State} (hc : s.clients = []) (hr : s.rst = true) :
    cycle s = resetCycle s := by
  rw [cycle, serveClients_nil hc, andThen_next, if_pos hr]

/-! ## COMMAND (43_addressing_data R750) -/

/-- COMMAND is accepted in every state, with no shadow written. -/
theorem exec_command (b : Byte) (s : State) :
    exec (.command b) s = .next (accepted (cmd s.cfg.la b) 0 s) :=
  accept_eq (cmd s.cfg.la b) 0 s

/-- The COMMAND of a display-control byte, performed, writes the LCD's display-control register
alone. -/
theorem performsTo_command_display {s : State} {v : Byte} (hv : s.cfg.la.valid = true)
    (hs : EnableSettled s) (hp : s.lcd.phase = .fourBit) (hlegal : v &&& 0xF8 = 0) :
    PerformsTo (accepted (cmd s.cfg.la (codeDisplay ||| v)) 0 s).uq
      (accepted (cmd s.cfg.la (codeDisplay ||| v)) 0 s)
      fun u => SameRegisters { s.lcd with dc := v } u.lcd :=
  ((performsTo_display (s := accepted (cmd s.cfg.la (codeDisplay ||| v)) 0 s) hv hs hp
    hlegal).mono fun _ hu => hu.2).done 0

/-- An LCD in step whose display-control register alone has been written stays in step only where DC
held that value. -/
theorem lcdInStep_iff_of_display {s u : State} {v : Byte} (hin : LcdInStep s)
    (hshadows : SameShadows s u) (hregs : SameRegisters { s.lcd with dc := v } u.lcd) :
    LcdInStep u ↔ s.dc = some v := by
  obtain ⟨hp, hfn, -, hem⟩ := hin
  obtain ⟨-, hfn', hdc', hem', -, -⟩ := hshadows
  obtain ⟨hphase, hlcdFn, hlcdDc, hlcdEm⟩ := hregs
  rw [LcdInStep, hfn', hdc', hem', hphase, hlcdFn, hlcdDc, hlcdEm]
  exact ⟨fun ⟨_, _, hdc, _⟩ => hdc, fun hdc => ⟨hp, hfn, hdc, hem⟩⟩

end Sys2Proof.Machine
end

section
open Sys2Proof Sys2Proof.Machine

/-- Settles O11: whatever became of the operation that the reset cycle cuts off, the block is at its
reset values. -/
theorem rstReturnsTheBlockToReset : Obligations.RstReturnsTheBlockToReset := by
  unfold Obligations.RstReturnsTheBlockToReset
  intro s hv hc hr
  obtain ⟨e, l, k, hreset, -, -⟩ := resetCycle_next s
  have hstep : step s = .next { s.resetBlock with expander := e, lcd := l, fresh := k } := by
    rw [step_valid hv, cycle_rst hc hr, hreset]
  exact ⟨_, hstep, rfl, rfl, rfl, rfl, rfl, rfl, rfl, rfl, rfl, rfl, rfl, rfl, rfl, rfl, rfl, rfl, rfl,
    rfl⟩

/-- Settles O60: the byte's SEND writes the LCD's display-control register, and performing a list
writes no shadow. -/
theorem commandDriftsFromTheShadow : Obligations.CommandDriftsFromTheShadow := by
  unfold Obligations.CommandDriftsFromTheShadow
  intro s v hv hs hin hlegal
  have hla : s.cfg.la.valid = true := (Bool.and_eq_true_iff.1 hv).1
  obtain ⟨u, hu, hregs⟩ := performsTo_command_display hla hs hin.1 hlegal
  have hshadows : SameShadows s u := performAll_shadows (s := accepted _ 0 s) hu
  have hinStep := lcdInStep_iff_of_display hin hshadows hregs
  obtain ⟨-, -, hlcd, -⟩ := hregs
  obtain ⟨-, -, hdc, -⟩ := hshadows
  exact ⟨_, u, exec_command _ s, hu, hlcd, hdc, hinStep⟩

/-- Settles O9: the clients have their turn before the block, and that one stops the model. -/
theorem foreignWriteOfAnOwnLineIsRefused : Obligations.ForeignWriteOfAnOwnLineIsRefused := by
  unfold Obligations.ForeignWriteOfAnOwnLineIsRefused
  intro s op rest hv hc hl
  rw [step_valid hv, cycle, serveClients_own_line hc hl, andThen]

end
